-- ==== Sys2Proof/Word.lean ====
section
/-!
DEFINITION. The sizes of 00_scope.md section 4.1 that types are made of, by their names there, and the word types made
of them. The record of all the sizes is `Sizes` in Config.lean (log 21).
-/

namespace Sys2Proof

/-- N_PROTO, the number of protocols: what a protocol id must be below (R93). -/
abbrev nProto : Nat := 9
/-- N_CMD, the number of commands. -/
abbrev nCmd : Nat := 4
/-- N_LEVELS, the number of power levels. -/
abbrev nLevels : Nat := 5
/-- EDGE_W, the width of an edge. -/
abbrev edgeW : Nat := 32
/-- SC_W, the width of a scancode. -/
abbrev scW : Nat := 32
/-- DW_W, the width of consumed_dw and produced_dw. -/
abbrev dwW : Nat := 32
/-- REQ_W, the width of a request word. -/
abbrev reqW : Nat := 72

/-- A 32-bit unsigned word, `u32` (00_scope.md section 5.1): an operand field of a request, a carrier, a unit. -/
abbrev Word := BitVec 32

/-- A scancode (SC_W). -/
abbrev Scancode := BitVec scW

/-- consumed_dw or produced_dw, in two's complement (DW_W). -/
abbrev Power := BitVec dwW

/-- One edge: a duration in microseconds, unsigned (R30, EDGE_W). -/
abbrev Edge := BitVec edgeW

/-- One request word, REQ[71:0] (R90, REQ_W). -/
abbrev Request := BitVec reqW

/-- A power level, 0 to N_LEVELS - 1 (R35). -/
abbrev Level := Fin nLevels

end Sys2Proof
end

