-- ==== Sys2Proof/Config.lean ====
section
/-!
DEFINITION. The configuration record (00_scope.md R11, section 4; 10_state.md R43) and the free values.
The default values of the record are in Machine/Params.lean.
-/

namespace Sys2Proof

/-- The closed set of nine protocols, in the order of their ids 0 to 8 (R93, R120). -/
inductive Proto where
  | jvc | sony12 | sony15 | sony20 | nec | necx | nec32 | sanyo | sharp
deriving DecidableEq, Repr, Inhabited

/-- Every protocol, in the order of the ids (R93): N_PROTO of them. -/
def Proto.all : List Proto := [.jvc, .sony12, .sony15, .sony20, .nec, .necx, .nec32, .sanyo, .sharp]

/-- The four commands, in the order of their ids 0 to 3 (R94). -/
inductive Command where
  | powerToggle | tempDown | tempUp | inverterPower
deriving DecidableEq, Repr, Inhabited

/-- Every command, in the order of the ids (R94): N_CMD of them. -/
def Command.all : List Command := [.powerToggle, .tempDown, .tempUp, .inverterPower]

/-- Who takes the next step when there is a choice. RAMP_PRESS and TICK are never enabled together (R251, R255), so
the choice of R292 is between the host's request and the one enabled internal step. -/
inductive Turn where
  | host | internal
deriving DecidableEq, Repr, Inhabited

/-- The six answers of the device and its driver that one TXOPEN draws (R192). -/
structure OpenAnswers where
  openOk : Bool
  queryOk : Bool
  canSendRaw : Bool
  canSetCarrier : Bool
  carrierOk : Bool
  modeOk : Bool
deriving DecidableEq, Repr, Inhabited

/-- One row of the protocol table (R31, R120). -/
structure ProtoRow where
  scancodeMask : Scancode
  maxEdges : BitVec 10
  carrierHz : Word
  unitNs : Word
deriving DecidableEq, Repr, Inhabited

/-- The protocol table ROM, one row per protocol (R31, R121). -/
structure ProtoTable where
  jvc : ProtoRow
  sony12 : ProtoRow
  sony15 : ProtoRow
  sony20 : ProtoRow
  nec : ProtoRow
  necx : ProtoRow
  nec32 : ProtoRow
  sanyo : ProtoRow
  sharp : ProtoRow
deriving DecidableEq, Repr, Inhabited

/-- One entry of NEC_BYTES: byte `index` of the scancode, complemented within 8 bits or not (00_scope.md section 4.4).
-/
structure ByteSel where
  index : Fin 4
  complemented : Bool
deriving DecidableEq, Repr, Inhabited

/-- The four bytes of a NEC-family frame, first sent first (R156). -/
structure NecBytes where
  byte0 : ByteSel
  byte1 : ByteSel
  byte2 : ByteSel
  byte3 : ByteSel
deriving DecidableEq, Repr, Inhabited

/-- A field of a scancode: the `width` bits from bit `lo` upward (00_scope.md section 4.4). -/
structure Field where
  lo : Nat
  width : Nat
deriving DecidableEq, Repr, Inhabited

/-- The encoder layout parameters (00_scope.md section 4.4): the bytes of the NEC family, the fields of SANYO and SHARP,
the SHARP trailer, the fields of the SONY protocols in the order they are sent, and the units of a SONY pulse for a 1
and for a 0 bit. DESIGN CHOICE, safe (log 14). -/
structure Layout where
  necBytes : NecBytes
  necxBytes : NecBytes
  nec32Bytes : NecBytes
  sanyoAddr : Field
  sanyoData : Field
  sharpAddr : Field
  sharpData : Field
  sharpTrailer : BitVec 2
  sony12Fields : List Field
  sony15Fields : List Field
  sony20Fields : List Field
  sonyUnits1 : Nat
  sonyUnits0 : Nat
deriving DecidableEq, Repr, Inhabited

/-- The sizes of 00_scope.md section 4.1. The capacity of the edge buffer and the width of TIME are read by the steps;
the others are the sizes of types (Word.lean), and Config.Ok says that they are. DESIGN CHOICE, safe (log 21). -/
structure Sizes where
  nProto : Nat
  ebCap : Nat
  edgeW : Nat
  scW : Nat
  dwW : Nat
  nLevels : Nat
  nCmd : Nat
  timeW : Nat
  reqW : Nat
deriving DecidableEq, Repr, Inhabited

/-- The configuration record: the four tables of 00_scope.md section 4, every number by its name (R11).
It is an argument of the step relation and not a register (R43); State carries it and no step writes it (log 11).
`ultraThreshold` and `updateCadenceSeconds` are read by no rule (R224; section 4.3, "not enforced"). -/
structure Config where
  sizes : Sizes
  table : ProtoTable
  layout : Layout
  lowThreshold : Int
  midThreshold : Int
  highThreshold : Int
  ultraThreshold : Int
  ticksPerSecond : Nat
  tOnSeconds : Nat
  tOffSeconds : Nat
  tDebounceSeconds : Nat
  tPressSeconds : Nat
  updateCadenceSeconds : Nat
  hpcProto : Proto
  scPowerToggle : Scancode
  scTempDown : Scancode
  scTempUp : Scancode
  scInverterPower : Scancode
deriving DecidableEq, Repr, Inhabited

/-! ### Free values: constants with no body, so nothing can be proved about what they are. -/

/-- CMD_SCANCODE of the reset configuration: OPEN, no default (R43, R326, D32). The low 16 bits of the scancode, so
that each satisfies is_valid(NEC, x) under the default mask, as R326 requires. DESIGN CHOICE, safe (log 12). -/
opaque Config.openCmdScancode : Command → BitVec 16

/-- Who moves next when the schedule says nothing (R292), at a value of the draw counter. Safe (log 2). -/
opaque Config.freeTurn : Nat → Turn

/-- The device's answers to a TXOPEN for which none are queued (R192, U5), at a value of the draw counter. Safe (log 3).
-/
opaque Config.freeOpen : Nat → OpenAnswers

/-- The byte count a device write returns when none is queued (R200, U6), at a value of the draw counter. Safe (log 3).
-/
opaque Config.freeWrite : Nat → Nat

/-- tx_proto at reset, where the spec gives no value (R33, R48, U4). Safe (log 9). -/
opaque Config.resetTxProto : Proto

/-- tx_carrier at reset, where the spec gives no value (R34, R48, U4). Safe (log 9). -/
opaque Config.resetTxCarrier : Word

/-- tx_proto after a TXCLOSE (R202: it holds no value), at a value of the draw counter. Safe (log 9). -/
opaque Config.freeTxProto : Nat → Proto

/-- tx_carrier after a TXCLOSE (R202: it holds no value), at a value of the draw counter. Safe (log 9). -/
opaque Config.freeTxCarrier : Nat → Word

/-- What an element of EB at or above ELEN reads as (R30, U3): draw counter, then index. Safe (log 10). -/
opaque Config.freeEdge : Nat → Nat → Edge

end Sys2Proof
end

