-- ==== Sys2Proof/Syntax.lean ====
section
/-!
DEFINITION. The instructions: one constructor per row of spec/opcode_table.json (30_encoding.md R91, R96).
Fields a format marks "ignored" are no operands (R99); they are not carried (log 15).
-/

namespace Sys2Proof

/-- The host operations. `sel` is the raw 4-bit protocol id of TXOPEN and TXSEND, whose range WellFormed checks. -/
inductive Instr where
  | validJvc (scancode : Scancode)
  | validSony12 (scancode : Scancode)
  | validSony15 (scancode : Scancode)
  | validSony20 (scancode : Scancode)
  | validNec (scancode : Scancode)
  | validNecx (scancode : Scancode)
  | validNec32 (scancode : Scancode)
  | validSanyo (scancode : Scancode)
  | validSharp (scancode : Scancode)
  | encodeJvc (scancode : Scancode)
  | encodeSony12 (scancode : Scancode)
  | encodeSony15 (scancode : Scancode)
  | encodeSony20 (scancode : Scancode)
  | encodeNec (scancode : Scancode)
  | encodeNecx (scancode : Scancode)
  | encodeNec32 (scancode : Scancode)
  | encodeSanyo (scancode : Scancode)
  | encodeSharp (scancode : Scancode)
  | txopen (sel : BitVec 4)
  | txsend (sel : BitVec 4) (scancode : Scancode)
  | txclose
  | update (consumed produced : Power)
  | pressPowerToggle
  | pressTempDown
  | pressTempUp
deriving DecidableEq, Repr, Inhabited

end Sys2Proof
end

