-- ==== Sys2Proof/WellFormed.lean ====
section
/-!
DEFINITION. Which terms of Instr are instructions of the block (30_encoding.md R91, R98).
-/

namespace Sys2Proof

/-- SEL names a protocol: it is below N_PROTO, so 0 to 8 (R93, R98). -/
def selNamesProto (sel : BitVec 4) : Bool := decide (sel.toNat < nProto)

/-- The one operand whose type is wider than its range is the protocol id of TXOPEN and TXSEND. -/
def Instr.wellFormed : Instr → Bool
  | .txopen sel => selNamesProto sel
  | .txsend sel _ => selNamesProto sel
  | .validJvc _ | .validSony12 _ | .validSony15 _ | .validSony20 _ | .validNec _ | .validNecx _ | .validNec32 _
  | .validSanyo _ | .validSharp _ | .encodeJvc _ | .encodeSony12 _ | .encodeSony15 _ | .encodeSony20 _ | .encodeNec _
  | .encodeNecx _ | .encodeNec32 _ | .encodeSanyo _ | .encodeSharp _ | .txclose | .update _ _ | .pressPowerToggle
  | .pressTempDown | .pressTempUp => true

/-- An instruction is well formed when the block accepts its encoding (R98). -/
abbrev Instr.WellFormed (i : Instr) : Prop := i.wellFormed = true

end Sys2Proof
end

