-- ==== Sys2Proof/Decode.lean ====
section
/-!
DEFINITION. The request decoder, total on any 72-bit word, and the encoder (30_encoding.md R90 to R100).
-/

namespace Sys2Proof

/-- Why a request names no operation (R97, R98). -/
inductive DecodeError where
  /-- OP is 0 or 8 to 15 (R97). -/
  | reservedOp
  /-- A protocol id of 9 to 15 in format PS or P (R98). -/
  | protocolOutOfRange
  /-- A command id of 3 to 15 in format C (R98, R237). -/
  | commandOutOfRange
  /-- A non-zero SEL in format Z or W (R98). -/
  | selNotZero
deriving DecidableEq, Repr, Inhabited

/-! ### The fields of a request (R90) -/

/-- OP = REQ[71:68]. -/
def opField (w : Request) : BitVec 4 := w.extractLsb' 68 4
/-- SEL = REQ[67:64]. -/
def selField (w : Request) : BitVec 4 := w.extractLsb' 64 4
/-- A = REQ[63:32]. -/
def aField (w : Request) : Word := w.extractLsb' 32 32
/-- B = REQ[31:0]. -/
def bField (w : Request) : Word := w.extractLsb' 0 32

/-- A request from its four fields (R90). -/
def assemble (op sel : BitVec 4) (a b : Word) : Request := op ++ sel ++ a ++ b

/-- The protocol a protocol id names (R93). -/
def Proto.ofSel (sel : BitVec 4) : Option Proto :=
  match sel.toNat with
  | 0 => some .jvc
  | 1 => some .sony12
  | 2 => some .sony15
  | 3 => some .sony20
  | 4 => some .nec
  | 5 => some .necx
  | 6 => some .nec32
  | 7 => some .sanyo
  | 8 => some .sharp
  | _ => none

/-- The id of a protocol (R93). -/
def Proto.id : Proto → BitVec 4
  | .jvc => 0
  | .sony12 => 1
  | .sony15 => 2
  | .sony20 => 3
  | .nec => 4
  | .necx => 5
  | .nec32 => 6
  | .sanyo => 7
  | .sharp => 8

/-- VALID with scancode `a` under a protocol (R96). -/
def Instr.validOf (p : Proto) (a : Scancode) : Instr :=
  match p with
  | .jvc => .validJvc a
  | .sony12 => .validSony12 a
  | .sony15 => .validSony15 a
  | .sony20 => .validSony20 a
  | .nec => .validNec a
  | .necx => .validNecx a
  | .nec32 => .validNec32 a
  | .sanyo => .validSanyo a
  | .sharp => .validSharp a

/-- ENCODE with scancode `a` under a protocol (R96). -/
def Instr.encodeOf (p : Proto) (a : Scancode) : Instr :=
  match p with
  | .jvc => .encodeJvc a
  | .sony12 => .encodeSony12 a
  | .sony15 => .encodeSony15 a
  | .sony20 => .encodeSony20 a
  | .nec => .encodeNec a
  | .necx => .encodeNecx a
  | .nec32 => .encodeNec32 a
  | .sanyo => .encodeSanyo a
  | .sharp => .encodeSharp a

/-- A request whose SEL must be a protocol id (formats PS and P, R91, R98). -/
def withProto (sel : BitVec 4) (f : Proto → Instr) : Except DecodeError Instr :=
  match Proto.ofSel sel with
  | some p => .ok (f p)
  | none => .error .protocolOutOfRange

/-- A request whose SEL must be zero (formats Z and W, R91, R98). -/
def withZeroSel (sel : BitVec 4) (i : Instr) : Except DecodeError Instr :=
  if sel = 0 then .ok i else .error .selNotZero

/-- PRESS by its command id 0 to 2 (format C, R91, R94, R98, R237). -/
def decodePress (sel : BitVec 4) : Except DecodeError Instr :=
  match sel.toNat with
  | 0 => .ok .pressPowerToggle
  | 1 => .ok .pressTempDown
  | 2 => .ok .pressTempUp
  | _ => .error .commandOutOfRange

/-- The operation a request names: OP first, then SEL (R96 to R100). Fields the format ignores are not read (R99). -/
def decode (w : Request) : Except DecodeError Instr :=
  match (opField w).toNat with
  | 1 => withProto (selField w) (fun p => .validOf p (aField w))
  | 2 => withProto (selField w) (fun p => .encodeOf p (aField w))
  | 3 => withProto (selField w) (fun p => .txopen p.id)
  | 4 => withProto (selField w) (fun p => .txsend p.id (aField w))
  | 5 => withZeroSel (selField w) .txclose
  | 6 => withZeroSel (selField w) (.update (aField w) (bField w))
  | 7 => decodePress (selField w)
  | _ => .error .reservedOp

/-! ### The encoder -/

/-- The request word of an instruction (R90, R96); ignored fields are zero (R102). -/
def encode : Instr → Request
  | .validJvc a => assemble 1 0 a 0
  | .validSony12 a => assemble 1 1 a 0
  | .validSony15 a => assemble 1 2 a 0
  | .validSony20 a => assemble 1 3 a 0
  | .validNec a => assemble 1 4 a 0
  | .validNecx a => assemble 1 5 a 0
  | .validNec32 a => assemble 1 6 a 0
  | .validSanyo a => assemble 1 7 a 0
  | .validSharp a => assemble 1 8 a 0
  | .encodeJvc a => assemble 2 0 a 0
  | .encodeSony12 a => assemble 2 1 a 0
  | .encodeSony15 a => assemble 2 2 a 0
  | .encodeSony20 a => assemble 2 3 a 0
  | .encodeNec a => assemble 2 4 a 0
  | .encodeNecx a => assemble 2 5 a 0
  | .encodeNec32 a => assemble 2 6 a 0
  | .encodeSanyo a => assemble 2 7 a 0
  | .encodeSharp a => assemble 2 8 a 0
  | .txopen sel => assemble 3 sel 0 0
  | .txsend sel a => assemble 4 sel a 0
  | .txclose => assemble 5 0 0 0
  | .update c p => assemble 6 0 c p
  | .pressPowerToggle => assemble 7 0 0 0
  | .pressTempDown => assemble 7 1 0 0
  | .pressTempUp => assemble 7 2 0 0

/-- The bits of a request that select or feed the instruction: OP and SEL always, A and B by format (R91). -/
def Instr.readMask : Instr → Request
  | .validJvc _ | .validSony12 _ | .validSony15 _ | .validSony20 _ | .validNec _ | .validNecx _ | .validNec32 _
  | .validSanyo _ | .validSharp _ | .encodeJvc _ | .encodeSony12 _ | .encodeSony15 _ | .encodeSony20 _ | .encodeNec _
  | .encodeNecx _ | .encodeNec32 _ | .encodeSanyo _ | .encodeSharp _ | .txsend _ _ => 0xFFFFFFFFFF00000000#72
  | .update _ _ => 0xFFFFFFFFFFFFFFFFFF#72
  | .txopen _ | .txclose | .pressPowerToggle | .pressTempDown | .pressTempUp => 0xFF0000000000000000#72

/-! ### The opcode table -/

/-- A row of spec/opcode_table.json: a request `w` selects it when `w & mask = bits` (R96). -/
structure OpRow where
  bits : Request
  mask : Request
deriving DecidableEq, Repr, Inhabited

/-- The row selects the request (R96). -/
def OpRow.selects (r : OpRow) (w : Request) : Bool := w &&& r.mask == r.bits

/-- The row of spec/opcode_table.json an instruction stands for. -/
def Instr.row : Instr → OpRow
  | .validJvc _ => ⟨0x100000000000000000#72, 0xFF0000000000000000#72⟩
  | .validSony12 _ => ⟨0x110000000000000000#72, 0xFF0000000000000000#72⟩
  | .validSony15 _ => ⟨0x120000000000000000#72, 0xFF0000000000000000#72⟩
  | .validSony20 _ => ⟨0x130000000000000000#72, 0xFF0000000000000000#72⟩
  | .validNec _ => ⟨0x140000000000000000#72, 0xFF0000000000000000#72⟩
  | .validNecx _ => ⟨0x150000000000000000#72, 0xFF0000000000000000#72⟩
  | .validNec32 _ => ⟨0x160000000000000000#72, 0xFF0000000000000000#72⟩
  | .validSanyo _ => ⟨0x170000000000000000#72, 0xFF0000000000000000#72⟩
  | .validSharp _ => ⟨0x180000000000000000#72, 0xFF0000000000000000#72⟩
  | .encodeJvc _ => ⟨0x200000000000000000#72, 0xFF0000000000000000#72⟩
  | .encodeSony12 _ => ⟨0x210000000000000000#72, 0xFF0000000000000000#72⟩
  | .encodeSony15 _ => ⟨0x220000000000000000#72, 0xFF0000000000000000#72⟩
  | .encodeSony20 _ => ⟨0x230000000000000000#72, 0xFF0000000000000000#72⟩
  | .encodeNec _ => ⟨0x240000000000000000#72, 0xFF0000000000000000#72⟩
  | .encodeNecx _ => ⟨0x250000000000000000#72, 0xFF0000000000000000#72⟩
  | .encodeNec32 _ => ⟨0x260000000000000000#72, 0xFF0000000000000000#72⟩
  | .encodeSanyo _ => ⟨0x270000000000000000#72, 0xFF0000000000000000#72⟩
  | .encodeSharp _ => ⟨0x280000000000000000#72, 0xFF0000000000000000#72⟩
  | .txopen _ => ⟨0x300000000000000000#72, 0xF00000000000000000#72⟩
  | .txsend _ _ => ⟨0x400000000000000000#72, 0xF00000000000000000#72⟩
  | .txclose => ⟨0x500000000000000000#72, 0xFF0000000000000000#72⟩
  | .update _ _ => ⟨0x600000000000000000#72, 0xFF0000000000000000#72⟩
  | .pressPowerToggle => ⟨0x700000000000000000#72, 0xFF0000000000000000#72⟩
  | .pressTempDown => ⟨0x710000000000000000#72, 0xFF0000000000000000#72⟩
  | .pressTempUp => ⟨0x720000000000000000#72, 0xFF0000000000000000#72⟩

/-- The 25 rows of the table, by one instruction of each. -/
def opcodeRows : List OpRow :=
  ([.validJvc 0, .validSony12 0, .validSony15 0, .validSony20 0, .validNec 0, .validNecx 0, .validNec32 0,
    .validSanyo 0, .validSharp 0] : List Instr).map Instr.row
  ++ ([.encodeJvc 0, .encodeSony12 0, .encodeSony15 0, .encodeSony20 0, .encodeNec 0, .encodeNecx 0, .encodeNec32 0,
    .encodeSanyo 0, .encodeSharp 0] : List Instr).map Instr.row
  ++ ([.txopen 0, .txsend 0 0, .txclose, .update 0 0, .pressPowerToggle, .pressTempDown,
    .pressTempUp] : List Instr).map Instr.row

/-- The request word whose bits are `w`, of which the table gives `nbits`; every higher bit is 0. -/
def tableWord (nbits w : Nat) : Request := BitVec.ofNat reqW (w % 2 ^ nbits)

/-- What the decoder reads from a word as spec/opcode_table.json numbers its bits. -/
def decodeTableWord (nbits w : Nat) : Option Instr :=
  match decode (tableWord nbits w) with
  | .ok i => some i
  | .error _ => none

end Sys2Proof
end

