-- ==== Sys2Proof/Machine/Params.lean ====
section
/-!
DEFINITION. The default values of the configuration record and the quantities computed from it
(00_scope.md section 4; 40_protocol_table.md R121; 60_exceptions.md R295).
-/

namespace Sys2Proof

/-- The contents of PT (R121). -/
def ProtoTable.default : ProtoTable where
  jvc := ⟨0x0000FFFF#32, 35#10, 38000#32, 525000#32⟩
  sony12 := ⟨0x001F007F#32, 25#10, 40000#32, 600000#32⟩
  sony15 := ⟨0x00FF007F#32, 31#10, 40000#32, 600000#32⟩
  sony20 := ⟨0x001FFF7F#32, 41#10, 40000#32, 600000#32⟩
  nec := ⟨0x0000FFFF#32, 67#10, 38000#32, 562500#32⟩
  necx := ⟨0x00FFFFFF#32, 67#10, 38000#32, 562500#32⟩
  nec32 := ⟨0xFFFFFFFF#32, 67#10, 38000#32, 562500#32⟩
  sanyo := ⟨0x001FFFFF#32, 87#10, 38000#32, 562500#32⟩
  sharp := ⟨0x00001FFF#32, 63#10, 38000#32, 40000#32⟩

/-- The row of a protocol (R62). -/
def ProtoTable.row (t : ProtoTable) : Proto → ProtoRow
  | .jvc => t.jvc
  | .sony12 => t.sony12
  | .sony15 => t.sony15
  | .sony20 => t.sony20
  | .nec => t.nec
  | .necx => t.necx
  | .nec32 => t.nec32
  | .sanyo => t.sanyo
  | .sharp => t.sharp

/-- The layout parameters of 00_scope.md section 4.4: NEC_BYTES (R157 to R159), SANYO (R161), SHARP (R162),
SONY (R163 to R166). -/
def Layout.default : Layout where
  necBytes := ⟨⟨0, false⟩, ⟨0, true⟩, ⟨0, false⟩, ⟨1, false⟩⟩
  necxBytes := ⟨⟨2, false⟩, ⟨1, false⟩, ⟨0, false⟩, ⟨0, true⟩⟩
  nec32Bytes := ⟨⟨3, false⟩, ⟨2, false⟩, ⟨1, false⟩, ⟨0, false⟩⟩
  sanyoAddr := ⟨8, 13⟩
  sanyoData := ⟨0, 8⟩
  sharpAddr := ⟨8, 5⟩
  sharpData := ⟨0, 8⟩
  sharpTrailer := 0b01#2
  sony12Fields := [⟨0, 7⟩, ⟨16, 5⟩]
  sony15Fields := [⟨0, 7⟩, ⟨16, 8⟩]
  sony20Fields := [⟨0, 7⟩, ⟨16, 5⟩, ⟨8, 8⟩]
  sonyUnits1 := 2
  sonyUnits0 := 1

/-- The sizes of 00_scope.md section 4.1. -/
def Sizes.default : Sizes where
  nProto := Sys2Proof.nProto
  ebCap := 512
  edgeW := Sys2Proof.edgeW
  scW := Sys2Proof.scW
  dwW := Sys2Proof.dwW
  nLevels := Sys2Proof.nLevels
  nCmd := Sys2Proof.nCmd
  timeW := 64
  reqW := Sys2Proof.reqW

/-- The defaults of 00_scope.md section 4 with the four command scancodes given (OPEN parameters, no default, D32). -/
def Config.withScancodes (scancode : Command → Scancode) : Config where
  sizes := Sizes.default
  table := ProtoTable.default
  layout := Layout.default
  lowThreshold := 4200
  midThreshold := 6000
  highThreshold := 7000
  ultraThreshold := 9000
  ticksPerSecond := 1000
  tOnSeconds := 600
  tOffSeconds := 300
  tDebounceSeconds := 60
  tPressSeconds := 1
  updateCadenceSeconds := 5
  hpcProto := .nec
  scPowerToggle := scancode .powerToggle
  scTempDown := scancode .tempDown
  scTempUp := scancode .tempUp
  scInverterPower := scancode .inverterPower

/-- The reset configuration: the spec's defaults, and uninterpreted command scancodes (log 12). -/
def Config.default : Config := Config.withScancodes fun c => (Config.openCmdScancode c).setWidth scW

/-- `PT[p]` (R62). -/
def Config.row (c : Config) (p : Proto) : ProtoRow := c.table.row p

/-- `CMD_SCANCODE[cmd]` (R43, R205). -/
def Config.cmdScancode (c : Config) : Command → Scancode
  | .powerToggle => c.scPowerToggle
  | .tempDown => c.scTempDown
  | .tempUp => c.scTempUp
  | .inverterPower => c.scInverterPower

/-- EB_CAP, the capacity of the edge buffer (R30, R61). -/
def Config.ebCap (c : Config) : Nat := c.sizes.ebCap

/-- The last value of the TIME_W-bit counter TIME, at which TICK is not enabled (R40, R255). -/
def Config.timeMax (c : Config) : Nat := 2 ^ c.sizes.timeW - 1

/-- T_ON in ticks (R295). -/
def Config.tOn (c : Config) : Nat := c.tOnSeconds * c.ticksPerSecond
/-- T_OFF in ticks (R295). -/
def Config.tOff (c : Config) : Nat := c.tOffSeconds * c.ticksPerSecond
/-- T_DEBOUNCE in ticks (R295). -/
def Config.tDebounce (c : Config) : Nat := c.tDebounceSeconds * c.ticksPerSecond
/-- T_PRESS in ticks (R295). -/
def Config.tPress (c : Config) : Nat := c.tPressSeconds * c.ticksPerSecond

end Sys2Proof
end

