-- ==== Sys2Proof/Machine/State.lean ====
section
/-!
DEFINITION. The state of the block as plain data (10_state.md, R20 to R48), the reasons a step can stop, and reset.
-/

namespace Sys2Proof.Machine

/-- The result codes (60_exceptions.md R281); codes 14 to 255 are never written, so they cannot be built (U21). -/
inductive Err where
  /-- 0: the operation completed. -/
  | ok
  /-- 1: the scancode fails is_valid. -/
  | invalidScancode
  /-- 2: the frame would be longer than max_edges. -/
  | noEncoding
  /-- 3: the device reported a byte count other than the frame's. -/
  | writeError
  /-- 4: the device cannot be opened. -/
  | openCannotOpen
  /-- 5: the feature flags cannot be read. -/
  | openCannotQueryFeatures
  /-- 6: the flags lack "can send raw pulses". -/
  | openNoRawSend
  /-- 7: the flags lack "can set send carrier". -/
  | openNoSetCarrier
  /-- 8: set-send-carrier fails. -/
  | openCarrierRejected
  /-- 9: set-send-mode fails. -/
  | openSendModeFailed
  /-- 10: OP reserved, or SEL out of range for the format. -/
  | illegalRequest
  /-- 11: a send or a close with no handle open. -/
  | notOpen
  /-- 12: a send under a protocol other than the handle's. -/
  | protocolMismatch
  /-- 13: TXOPEN with a handle open. -/
  | alreadyOpen
deriving DecidableEq, Repr, Inhabited

/-- The items of TXLOG, each with the TIME of the step that appended it (42_transport.md R204). -/
inductive Event where
  /-- The device node was opened. -/
  | opened (t : Nat)
  /-- The device accepted this send carrier. -/
  | carrier (t : Nat) (hz : Word)
  /-- The device accepted pulse send mode. -/
  | modePulse (t : Nat)
  /-- The device node was released. -/
  | closed (t : Nat)
  /-- The device took the whole frame. -/
  | frame (t : Nat) (p : Proto) (edges : List Edge)
  /-- The device reported `w` bytes, not the frame's. -/
  | short (t : Nat) (p : Proto) (edges : List Edge) (w : Nat)
deriving DecidableEq, Repr, Inhabited

/-- The state of the block. Every field the spec names is in 10_state.md R48; `cfg` is the step relation's argument
(R43, log 11); the last five are the model's own: the inputs of the agents and the counter of the free values. -/
structure State where
  /-- The configuration: PT and the parameters of 00_scope.md section 4 (R11, R31, R43). No step writes it. -/
  cfg : Config
  /-- `is_on` (R23). -/
  isOn : Bool
  /-- `can_turn_on` (R24). -/
  canTurnOn : Bool
  /-- `shall_turn_off` (R25). -/
  shallTurnOff : Bool
  /-- `V` (R26). -/
  v : Bool
  /-- `RAMP_FAULT`, sticky (R27). -/
  rampFault : Bool
  /-- `RAMP_ERR` (R27). -/
  rampErr : Err
  /-- `ERR` (R28). -/
  err : Err
  /-- `ELEN` (R29). -/
  elen : BitVec 10
  /-- `EB[0..ELEN-1]`, the elements that hold a value (R30, log 10). -/
  eb : List Edge
  /-- `tx_open` (R32). -/
  txOpen : Bool
  /-- `tx_proto`, a free value while `tx_open = 0` (R33, log 9). -/
  txProto : Proto
  /-- `tx_carrier`, a free value while `tx_open = 0` (R34, log 9). -/
  txCarrier : Word
  /-- `level`: 0 Low, 1 Mid, 2 High, 3 Ultra, 4 Auto (R35). -/
  level : Level
  /-- `last_power_change` (R36; a natural number by leave of R40, log 8). -/
  lastPowerChange : Nat
  /-- `can_turn_on_since` (R37). -/
  canTurnOnSince : Nat
  /-- `shall_turn_off_since` (R38). -/
  shallTurnOffSince : Nat
  /-- `ramp_remaining`, 0 to 4 (R39). -/
  rampRemaining : Fin nLevels
  /-- `ramp_next` (R39). -/
  rampNext : Nat
  /-- `TIME`, in ticks (R40). -/
  time : Nat
  /-- `TXLOG`, oldest event first (R45, log 19). -/
  txlog : List Event
  /-- The host's coming requests, next first (R75, log 1). -/
  requests : List Request
  /-- Which agent moves next where there is a choice, next first (R292, log 2). -/
  schedule : List Turn
  /-- What the device will answer to the coming TXOPENs, next first (R192, log 3). -/
  openAnswers : List OpenAnswers
  /-- What the device will report for the coming writes, next first (R200, log 3). -/
  writeAnswers : List Nat
  /-- The counter the free values are applied to (log 4). -/
  draws : Nat
deriving DecidableEq, Repr, Inhabited

/-- No step of the block ends in a fault: "No failure stops the block" (60_exceptions.md R290), and nothing is
unpredictable (R289). -/
inductive Fault where
deriving DecidableEq, Repr

/-- Why a step is refused. -/
inductive Refusal where
  /-- Raised only by an arm of exec whose instruction has no meaning yet. Safe: the run stops. -/
  | notModelled (mnemonic : String)
  /-- Raised by Machine.runInternal when TIME is at its last value, 2^64 - 1 by default, and neither a host request nor a press is enabled: TICK is
  refused rather than wrapped (R40, R255, U20). Safe: the run stops where the spec enables no step (log 7). -/
  | tickAtEndOfTime
deriving DecidableEq, Repr, Inhabited

/-- The state after reset under a configuration (R48, R320): no inputs are queued (log 1, 2, 3). -/
def State.resetWith (c : Config) : State where
  cfg := c
  isOn := false
  canTurnOn := false
  shallTurnOff := false
  v := false
  rampFault := false
  rampErr := .ok
  err := .ok
  elen := 0
  eb := []
  txOpen := false
  txProto := Config.resetTxProto
  txCarrier := Config.resetTxCarrier
  level := 0
  lastPowerChange := 0
  canTurnOnSince := 0
  shallTurnOffSince := 0
  rampRemaining := 0
  rampNext := 0
  time := 0
  txlog := []
  requests := []
  schedule := []
  openAnswers := []
  writeAnswers := []
  draws := 0

/-- The machine right after reset (R48, R320). -/
def State.reset : State := State.resetWith Config.default

end Sys2Proof.Machine
end

