-- ==== Sys2Proof/Machine/Operands.lean ====
section
/-!
DEFINITION. Operand forms and the arithmetic on them: UPDATE's operands, scancode fields, the shadow state, and the
host's view of the registers.
-/

namespace Sys2Proof.Machine

/-! ### UPDATE's operands -/

/-- `sint(v)`: a word as a two's complement number (00_scope.md section 5.1, R95). -/
def sint (w : Power) : Int := if w.toNat < 2 ^ (dwW - 1) then (w.toNat : Int) else (w.toNat : Int) - 2 ^ dwW

/-- `available_dw = produced_dw - consumed_dw`, exact (R221). -/
def availableDw (consumed produced : Power) : Int := sint produced - sint consumed

/-- The target power level of `available_dw` (R224). -/
def tier (c : Config) (a : Int) : Level :=
  if a ≤ c.lowThreshold then 0
  else if a ≤ c.midThreshold then 1
  else if a ≤ c.highThreshold then 2
  else 3

/-- The press count `(target - level + 5) mod 5`, 5 being N_LEVELS (R227). -/
def pressCount (target level : Level) : Fin nLevels :=
  ⟨(target.val + nLevels - level.val) % nLevels, Nat.mod_lt _ (by decide)⟩

/-! ### Fields of a scancode -/

/-- Byte `k` of the scancode, complemented or not (00_scope.md section 4.4). -/
def selectByte (sc : Scancode) (b : ByteSel) : BitVec 8 :=
  let x : BitVec 8 := sc.extractLsb' (8 * b.index.val) 8
  if b.complemented then ~~~x else x

/-- A field of the scancode as a number of its own width (00_scope.md section 4.4). -/
def selectField (sc : Scancode) (f : Field) : BitVec f.width := sc.extractLsb' f.lo f.width

/-! ### The shadow state -/

/-- The controller's states: Off, or On at a power level (R47, R220). -/
inductive PowerState where
  | off
  | on (level : Level)
deriving DecidableEq, Repr, Inhabited

/-- The abstract state read off the registers (R47). -/
def powerState (s : State) : PowerState := if s.isOn then .on s.level else .off

/-! ### Reading registers as the host does -/

/-- The number in ERR or RAMP_ERR (R281). -/
def Err.code : Err → BitVec 8
  | .ok => 0
  | .invalidScancode => 1
  | .noEncoding => 2
  | .writeError => 3
  | .openCannotOpen => 4
  | .openCannotQueryFeatures => 5
  | .openNoRawSend => 6
  | .openNoSetCarrier => 7
  | .openCarrierRejected => 8
  | .openSendModeFailed => 9
  | .illegalRequest => 10
  | .notOpen => 11
  | .protocolMismatch => 12
  | .alreadyOpen => 13

/-- `EB[i]` as the host reads it: the element below ELEN, and a free value at and above it (R30, U3, log 10). -/
def readEdge (s : State) (i : Nat) : Edge :=
  match s.eb[i]? with
  | some e => e
  | none => Config.freeEdge s.draws i

/-- One element as four bytes, byte 0 least significant (R67). -/
def edgeBytes (e : Edge) : List (BitVec 8) :=
  [e.extractLsb' 0 8, e.extractLsb' 8 8, e.extractLsb' 16 8, e.extractLsb' 24 8]

/-- A frame serialised into bytes, element 0 first, little-endian (R66, R67). -/
def frameBytes (edges : List Edge) : List (BitVec 8) := edges.flatMap edgeBytes

end Sys2Proof.Machine
end

