-- ==== Sys2Proof/Machine/Flags.lean ====
section
/-!
DEFINITION. The tests the operations make: the validity predicate behind V (40_protocol_table.md R123 to R127), the
dwell and debounce tests (60_exceptions.md R295), and the enabling conditions of the internal steps and the holds.
-/

namespace Sys2Proof.Machine

/-! ### Validity -/

/-- The mask check, all protocols (R123). -/
def maskValid (c : Config) (p : Proto) (sc : Scancode) : Bool := sc &&& ~~~(c.row p).scancodeMask == 0

/-- NECX: the high byte differs from the complement of the middle byte (R124; grouping by 90_conflicts.md C4). -/
def necxValid (sc : Scancode) : Bool := ((sc >>> 16) ^^^ ~~~(sc >>> 8)) &&& 0xFF#32 != 0

/-- NEC32: the same check one byte up (R125). -/
def nec32Valid (sc : Scancode) : Bool := ((sc >>> 24) ^^^ ~~~(sc >>> 16)) &&& 0xFF#32 != 0

/-- `is_valid(p, s)` (R127). -/
def isValid (c : Config) (p : Proto) (sc : Scancode) : Bool :=
  maskValid c p sc &&
  match p with
  | .necx => necxValid sc
  | .nec32 => nec32Valid sc
  | .jvc | .sony12 | .sony15 | .sony20 | .nec | .sanyo | .sharp => true

/-! ### Intervals -/

/-- `now - since ≥ d` in unbounded integers (R295). -/
def elapsed (now since d : Nat) : Bool := decide (since + d ≤ now)

/-! ### Enabling conditions -/

/-- A ramp is in flight (R39). -/
def rampInFlight (s : State) : Bool := decide (0 < s.rampRemaining.val)

/-- RAMP_PRESS is enabled (R251). -/
def pressDue (s : State) : Bool := rampInFlight s && decide (s.time = s.rampNext)

/-- TICK is enabled (R255). -/
def tickReady (s : State) : Bool := !pressDue s && decide (s.time < s.cfg.timeMax)

/-- An UPDATE must wait for the ramp in flight (R229). -/
def joinNeeded (a : Int) (s : State) : Bool :=
  s.isOn && decide (tier s.cfg a ≠ s.level) && elapsed s.time s.lastPowerChange s.cfg.tDebounce && rampInFlight s

/-- The operation is held: UPDATE by the join of R229, TXCLOSE by the join of R203; no other operation waits. -/
def held (i : Instr) (s : State) : Bool :=
  match i with
  | .update c p => joinNeeded (availableDw c p) s
  | .txclose => rampInFlight s
  | .validJvc _ | .validSony12 _ | .validSony15 _ | .validSony20 _ | .validNec _ | .validNecx _ | .validNec32 _
  | .validSanyo _ | .validSharp _ | .encodeJvc _ | .encodeSony12 _ | .encodeSony15 _ | .encodeSony20 _ | .encodeNec _
  | .encodeNecx _ | .encodeNec32 _ | .encodeSanyo _ | .encodeSharp _ | .txopen _ | .txsend _ _ | .pressPowerToggle
  | .pressTempDown | .pressTempUp => false

end Sys2Proof.Machine
end

