-- ==== Sys2Proof/Machine/Frames.lean ====
section
/-!
DEFINITION. The pure encoder `encode(p, s)`: a frame as its list of edges (41_encoder.md R150 to R169).
-/

namespace Sys2Proof.Machine

/-- `us(k, U) = (k * U + 500) div 1000` in unbounded integers (R153). -/
def us (k : Nat) (unitNs : Word) : Edge := BitVec.ofNat edgeW ((k * unitNs.toNat + 500) / 1000)

/-- Space-coded bits: the `n` bits of `v`, least significant first, each a pulse of `pulse` units and a space of `s1`
or `s0` units (R155). -/
def sbits (unitNs : Word) {n : Nat} (v : BitVec n) (pulse s0 s1 : Nat) : List Edge :=
  (List.range n).flatMap fun i => [us pulse unitNs, if v.getLsbD i then us s1 unitNs else us s0 unitNs]

/-- Pulse-coded bits: each bit a pulse of `p1` units for a 1 and of `p0` for a 0, then a space of 1 unit (R163). -/
def pbits (unitNs : Word) (p1 p0 : Nat) {n : Nat} (v : BitVec n) : List Edge :=
  (List.range n).flatMap fun i => [if v.getLsbD i then us p1 unitNs else us p0 unitNs, us 1 unitNs]

/-- One byte of a NEC-family frame (R156). -/
def necByte (unitNs : Word) (b : BitVec 8) : List Edge := sbits unitNs b 1 1 3

/-- The frame common to NEC, NECX and NEC32 (R156). -/
def necFamilyFrame (unitNs : Word) (sel : NecBytes) (sc : Scancode) : List Edge :=
  [us 16 unitNs, us 8 unitNs]
  ++ necByte unitNs (selectByte sc sel.byte0)
  ++ necByte unitNs (selectByte sc sel.byte1)
  ++ necByte unitNs (selectByte sc sel.byte2)
  ++ necByte unitNs (selectByte sc sel.byte3)
  ++ [us 1 unitNs]

/-- NEC (R157). -/
def necFrame (c : Config) (sc : Scancode) : List Edge := necFamilyFrame c.table.nec.unitNs c.layout.necBytes sc

/-- NECX (R158). -/
def necxFrame (c : Config) (sc : Scancode) : List Edge := necFamilyFrame c.table.necx.unitNs c.layout.necxBytes sc

/-- NEC32 (R159). -/
def nec32Frame (c : Config) (sc : Scancode) : List Edge := necFamilyFrame c.table.nec32.unitNs c.layout.nec32Bytes sc

/-- The byte-swapped 16-bit scancode of JVC: s[15:8] in the low byte (R160). -/
def jvcWord (sc : Scancode) : BitVec 16 := sc.extractLsb' 0 8 ++ sc.extractLsb' 8 8

/-- JVC (R160). -/
def jvcFrame (c : Config) (sc : Scancode) : List Edge :=
  let u := c.table.jvc.unitNs
  [us 16 u, us 8 u] ++ sbits u (jvcWord sc) 1 1 3 ++ [us 1 u]

/-- The frame of SANYO from its two fields, each sent and then sent complemented (R161). -/
def sanyoFieldsFrame (unitNs : Word) (fa fd : Field) (sc : Scancode) : List Edge :=
  let addr := selectField sc fa
  let data := selectField sc fd
  [us 16 unitNs, us 8 unitNs]
  ++ sbits unitNs addr 1 1 3 ++ sbits unitNs (~~~addr) 1 1 3
  ++ sbits unitNs data 1 1 3 ++ sbits unitNs (~~~data) 1 1 3
  ++ [us 1 unitNs]

/-- SANYO (R161). -/
def sanyoFrame (c : Config) (sc : Scancode) : List Edge :=
  sanyoFieldsFrame c.table.sanyo.unitNs c.layout.sanyoAddr c.layout.sanyoData sc

/-- The frame of SHARP from its two fields and the trailer, in two halves (R162). -/
def sharpFieldsFrame (unitNs : Word) (fa fd : Field) (t : BitVec 2) (sc : Scancode) : List Edge :=
  let addr := selectField sc fa
  let data := selectField sc fd
  sbits unitNs addr 8 25 50 ++ sbits unitNs data 8 25 50 ++ sbits unitNs t 8 25 50
  ++ [us 8 unitNs, us 1000 unitNs]
  ++ sbits unitNs addr 8 25 50 ++ sbits unitNs (~~~data) 8 25 50 ++ sbits unitNs (~~~t) 8 25 50 ++ [us 8 unitNs]

/-- SHARP (R162). -/
def sharpFrame (c : Config) (sc : Scancode) : List Edge :=
  sharpFieldsFrame c.table.sharp.unitNs c.layout.sharpAddr c.layout.sharpData c.layout.sharpTrailer sc

/-- The bits of the SONY fields, field after field (R163). -/
def sonyFieldBits (l : Layout) (unitNs : Word) (fields : List Field) (sc : Scancode) : List Edge :=
  fields.flatMap fun f => pbits unitNs l.sonyUnits1 l.sonyUnits0 (selectField sc f)

/-- The frame common to the SONY protocols: lead, the bits of the fields, less the space after the last bit (R163). -/
def sonyFamilyFrame (l : Layout) (unitNs : Word) (fields : List Field) (sc : Scancode) : List Edge :=
  ([us 4 unitNs, us 1 unitNs] ++ sonyFieldBits l unitNs fields sc).dropLast

/-- SONY12 (R164). -/
def sony12Frame (c : Config) (sc : Scancode) : List Edge :=
  sonyFamilyFrame c.layout c.table.sony12.unitNs c.layout.sony12Fields sc

/-- SONY15 (R165). -/
def sony15Frame (c : Config) (sc : Scancode) : List Edge :=
  sonyFamilyFrame c.layout c.table.sony15.unitNs c.layout.sony15Fields sc

/-- SONY20 (R166). -/
def sony20Frame (c : Config) (sc : Scancode) : List Edge :=
  sonyFamilyFrame c.layout c.table.sony20.unitNs c.layout.sony20Fields sc

/-- `encode(p, s)`, total in the scancode (R150, R169). -/
def encodeFrame (c : Config) (p : Proto) (sc : Scancode) : List Edge :=
  match p with
  | .jvc => jvcFrame c sc
  | .sony12 => sony12Frame c sc
  | .sony15 => sony15Frame c sc
  | .sony20 => sony20Frame c sc
  | .nec => necFrame c sc
  | .necx => necxFrame c sc
  | .nec32 => nec32Frame c sc
  | .sanyo => sanyoFrame c sc
  | .sharp => sharpFrame c sc

/-- `len(p)`, the length of every frame of a protocol (R167): 35, 25, 31, 41, 67, 67, 67, 87, 63 under the default
layout. -/
def frameLength (l : Layout) : Proto → Nat
  | .jvc => 35
  | .sony12 => 2 * (l.sony12Fields.map Field.width).sum + 1
  | .sony15 => 2 * (l.sony15Fields.map Field.width).sum + 1
  | .sony20 => 2 * (l.sony20Fields.map Field.width).sum + 1
  | .nec => 67
  | .necx => 67
  | .nec32 => 67
  | .sanyo => 4 * (l.sanyoAddr.width + l.sanyoData.width) + 3
  | .sharp => 4 * (l.sharpAddr.width + l.sharpData.width + 2) + 3

/-- `len(p) > PT[p].max_edges`: the bound check, made before anything is written (R167). A frame above the capacity of
EB is refused with it, so that no write passes EB_CAP whatever the table holds (R61; log 22). -/
def tooLong (c : Config) (p : Proto) (edges : List Edge) : Bool :=
  decide ((c.row p).maxEdges.toNat < edges.length) || decide (c.ebCap < edges.length)

end Sys2Proof.Machine
end

