-- ==== Sys2Proof/Machine/Ops.lean ====
section
/-!
DEFINITION. The named operations over the state: results and failures, the environment's draws, TXLOG, the edge buffer,
the handle, sending, and the controller's transitions.
-/

namespace Sys2Proof.Machine

/-! ### Results and failures (00_scope.md section 5.3; 60_exceptions.md R287) -/

/-- `fail e`: the block's one way to raise an error. ERR takes the code and the operation ends; what it wrote before
stays written, nothing is saved, no mode changes and no control is transferred (R287, R291), so there is no return. -/
def State.fail (s : State) (e : Err) : State := { s with err := e }

/-- `ok`: the operation ends with ERR 0. -/
def State.done (s : State) : State := { s with err := .ok }

/-- A failing press of the ramp worker: RAMP_FAULT and RAMP_ERR, not ERR (R252, R288). -/
def State.rampFail (s : State) (e : Err) : State := { s with rampFault := true, rampErr := e }

/-- A request that names no operation: ERR <- 10 and nothing else (R97, R98; log 5). -/
def State.illegal (s : State) : State := s.fail .illegalRequest

/-- V <- the answer (R128). -/
def State.setV (s : State) (b : Bool) : State := { s with v := b }

/-! ### The environment's draws (log 3) -/

/-- The answers the device will give to the next TXOPEN: the next queued, or a free value (R192, U5). -/
def State.nextOpen (s : State) : OpenAnswers :=
  match s.openAnswers with
  | o :: _ => o
  | [] => Config.freeOpen s.draws

/-- The next open answers are used up. -/
def State.openDrawn (s : State) : State :=
  { s with openAnswers := s.openAnswers.tail, draws := s.draws + 1 }

/-- The byte count the device will report for the next write: the next queued, or a free value (R200, U6). -/
def State.nextWrite (s : State) : Nat :=
  match s.writeAnswers with
  | w :: _ => w
  | [] => Config.freeWrite s.draws

/-- The next write answer is used up. -/
def State.writeDrawn (s : State) : State :=
  { s with writeAnswers := s.writeAnswers.tail, draws := s.draws + 1 }

/-! ### TXLOG and the edge buffer -/

/-- `TXLOG += e` (R45, R204). -/
def State.log (s : State) (e : Event) : State := { s with txlog := s.txlog ++ [e] }

/-- EB and ELEN take a whole frame (R61, R170, R196). -/
def State.storeFrame (s : State) (edges : List Edge) : State :=
  { s with eb := edges, elen := BitVec.ofNat 10 edges.length }

/-! ### The handle -/

/-- The handle is open and bound to `p`, its carrier looked up in PT (R32 to R34, R192). -/
def State.bindHandle (s : State) (p : Proto) : State :=
  { s with txOpen := true, txProto := p, txCarrier := (s.cfg.row p).carrierHz }

/-- The handle is released: `tx_open <- 0`, and `tx_proto` and `tx_carrier` hold no value (R202), which is a free value
here (log 9). -/
def State.dropHandle (s : State) : State :=
  { s with txOpen := false, txProto := Config.freeTxProto s.draws, txCarrier := Config.freeTxCarrier s.draws,
           draws := s.draws + 1 }

/-- A step of `open` failed after the device was opened: it is closed again before the error is returned (R194). -/
def State.abandonOpen (s : State) (e : Err) : State := (s.log (.closed s.time)).fail e

/-- The device steps of TXOPEN with the environment's answers `o`, in the order of R192. -/
def openDevice (p : Proto) (o : OpenAnswers) (s : State) : State :=
  if !o.openOk then s.fail .openCannotOpen
  else
    let s := s.log (.opened s.time)
    if !o.queryOk then s.abandonOpen .openCannotQueryFeatures
    else if !o.canSendRaw then s.abandonOpen .openNoRawSend
    else if !o.canSetCarrier then s.abandonOpen .openNoSetCarrier
    else if !o.carrierOk then s.abandonOpen .openCarrierRejected
    else
      let s := s.log (.carrier s.time (s.cfg.row p).carrierHz)
      if !o.modeOk then s.abandonOpen .openSendModeFailed
      else ((s.log (.modePulse s.time)).bindHandle p).done

/-- TXOPEN under a protocol: AlreadyOpen before any device step, else the draw and the device steps (R192). -/
def openHandle (p : Proto) (s : State) : State :=
  if s.txOpen then s.fail .alreadyOpen
  else openDevice p s.nextOpen s.openDrawn

/-- TXCLOSE once no ramp is in flight (R202). -/
def closeHandle (s : State) : State :=
  if s.txOpen then (s.dropHandle.log (.closed s.time)).done
  else s.fail .notOpen

/-! ### Sending a frame -/

/-- The outcome of handing a frame to the device, which reported `w` bytes (R196, R199): the whole frame, or a short
write, which is a hard error and is not retried. -/
def recordWrite (p : Proto) (edges : List Edge) (w : Nat) (s : State) : Err × State :=
  if w = 4 * edges.length then (.ok, s.log (.frame s.time p edges))
  else (.writeError, s.log (.short s.time p edges w))

/-- `DevWrite` of the frame just stored: the device's answer is drawn (R200) and the outcome recorded. -/
def devWrite (p : Proto) (edges : List Edge) (s : State) : Err × State :=
  recordWrite p edges s.nextWrite s.writeDrawn

/-- `SendFrame(p, s)` (R196). It returns a result code and does not write ERR. -/
def sendFrame (p : Proto) (sc : Scancode) (s : State) : Err × State :=
  if !isValid s.cfg p sc then (.invalidScancode, s)
  else if tooLong s.cfg p (encodeFrame s.cfg p sc) then (.noEncoding, s)
  else devWrite p (encodeFrame s.cfg p sc) (s.storeFrame (encodeFrame s.cfg p sc))

/-- `Send(cmd)`, the controller's way to the device: the one handle, which must be open for HPC_PROTO, NEC (R205). -/
def send (cmd : Command) (s : State) : Err × State :=
  if !s.txOpen then (.notOpen, s)
  else if s.txProto ≠ s.cfg.hpcProto then (.protocolMismatch, s)
  else sendFrame s.cfg.hpcProto (s.cfg.cmdScancode cmd) s

/-- A host operation that sends a command and, if the device took it, makes a transition; a failed send changes no
shadow state (R232, R233). -/
def sendThen (cmd : Command) (onOk : State → State) (s : State) : State :=
  let r := send cmd s
  if r.1 = .ok then (onOk r.2).done else r.2.fail r.1

/-! ### The controller's transitions -/

/-- TurnOn, Off to On{0} (R230). -/
def State.turnOn (s : State) : State := { s with isOn := true, level := 0, canTurnOn := false }

/-- TurnOff, On to Off (R231). -/
def State.turnOff (s : State) : State := { s with isOn := false, shallTurnOff := false }

/-- The toggle of PRESS POWER_TOGGLE (R234). -/
def State.togglePower (s : State) : State := if s.isOn then s.turnOff else s.turnOn

/-- Starts the "can turn on" timer if it is not running (R223). -/
def State.startCanTurnOn (s : State) : State :=
  if s.canTurnOn then s else { s with canTurnOn := true, canTurnOnSince := s.time }

/-- Resets the "can turn on" timer (R223). -/
def State.clearCanTurnOn (s : State) : State := { s with canTurnOn := false }

/-- Starts the "shall turn off" timer if it is not running (R225). -/
def State.startShallTurnOff (s : State) : State :=
  if s.shallTurnOff then s else { s with shallTurnOff := true, shallTurnOffSince := s.time }

/-- Resets the "shall turn off" timer (R225). -/
def State.clearShallTurnOff (s : State) : State := { s with shallTurnOff := false }

/-- An accepted level change arms the ramp (R226). -/
def State.armRamp (s : State) (target : Level) : State :=
  { s with rampRemaining := pressCount target s.level, rampNext := s.time, lastPowerChange := s.time }

/-- A level request is accepted: the target is another level and the debounce is over (R226, R228). -/
def requestAccepted (target : Level) (s : State) : Bool :=
  decide (target ≠ s.level) && elapsed s.time s.lastPowerChange s.cfg.tDebounce

/-- RequestLevel (R226). -/
def requestLevel (target : Level) (s : State) : State :=
  if requestAccepted target s then s.armRamp target else s

/-- OffBranch (R223). -/
def offBranch (a : Int) (s : State) : State :=
  if s.cfg.lowThreshold < a then
    let s := s.startCanTurnOn
    if elapsed s.time s.canTurnOnSince s.cfg.tOn then sendThen .powerToggle State.turnOn s else s.done
  else s.clearCanTurnOn.done

/-- The off timer of OnBranch, after the level request (R225). -/
def offTimer (a : Int) (s : State) : State :=
  if s.cfg.lowThreshold < a then s.clearShallTurnOff.done
  else
    let s := s.startShallTurnOff
    if elapsed s.time s.shallTurnOffSince s.cfg.tOff then sendThen .powerToggle State.turnOff s else s.done

/-- OnBranch: the level request first, then the off timer (R225). -/
def onBranch (a : Int) (s : State) : State := offTimer a (requestLevel (tier s.cfg a) s)

/-- UPDATE once it is not held: the branch is chosen by `is_on` at its start, and only that branch runs (R222). -/
def updateBody (a : Int) (s : State) : State := if s.isOn then onBranch a s else offBranch a s

end Sys2Proof.Machine
end

