-- ==== Sys2Proof/Machine/Controller.lean ====
section
/-!
DEFINITION. UPDATE and PRESS, and the two internal steps RAMP_PRESS and TICK (43_controller.md R220 to R258).
-/

namespace Sys2Proof.Machine

/-- `update <consumed_dw>, <produced_dw>` (R222). While JoinNeeded it is held (R229): nothing happens here, and the step
that would perform it leaves the request with the host (Machine.hostReady, log 6). -/
def execUpdate (consumed produced : Power) (s : State) : Host.Outcome State Fault Refusal :=
  if held (.update consumed produced) s then .next s
  else .next (updateBody (availableDw consumed produced) s)

/-- `press power_toggle` (R234). -/
def execPressPowerToggle (s : State) : Host.Outcome State Fault Refusal :=
  .next (sendThen .powerToggle State.togglePower s)

/-- `press temp_down` (R235): no state effect besides the send. -/
def execPressTempDown (s : State) : Host.Outcome State Fault Refusal :=
  .next (sendThen .tempDown id s)

/-- `press temp_up` (R236): no state effect besides the send. -/
def execPressTempUp (s : State) : Host.Outcome State Fault Refusal :=
  .next (sendThen .tempUp id s)

/-- One level up, cyclically (R251). -/
def State.stepLevel (s : State) : State :=
  { s with level := ⟨(s.level.val + 1) % nLevels, Nat.mod_lt _ (by decide)⟩ }

/-- One press less to send, the next due T_PRESS later (R251). -/
def State.pressDone (s : State) : State :=
  { s with rampRemaining := ⟨s.rampRemaining.val - 1, by omega⟩, rampNext := s.rampNext + s.cfg.tPress }

/-- RAMP_PRESS, the ramp worker's step (R251, R252). ERR is not written. -/
def rampPress (s : State) : State :=
  let r := send .inverterPower s
  if r.1 = .ok then r.2.stepLevel.pressDone else (r.2.rampFail r.1).pressDone

/-- TICK, the timebase's step (R255). -/
def tick (s : State) : State := { s with time := s.time + 1 }

end Sys2Proof.Machine
end

