-- ==== Sys2Proof/Machine/Encode.lean ====
section
/-!
DEFINITION. ENCODE, one meaning per protocol (41_encoder.md R157 to R166, R170).
-/

namespace Sys2Proof.Machine

/-- Wrapper of every `encode <proto>, <scancode>`: validity, the bound check, then EB and ELEN (R170). -/
def encodeOp (p : Proto) (sc : Scancode) (s : State) : State :=
  if !isValid s.cfg p sc then s.fail .invalidScancode
  else if tooLong s.cfg p (encodeFrame s.cfg p sc) then s.fail .noEncoding
  else (s.storeFrame (encodeFrame s.cfg p sc)).done

/-- `encode jvc` (R160). -/
def execEncodeJvc (sc : Scancode) (s : State) : Host.Outcome State Fault Refusal := .next (encodeOp .jvc sc s)
/-- `encode sony12` (R164). -/
def execEncodeSony12 (sc : Scancode) (s : State) : Host.Outcome State Fault Refusal := .next (encodeOp .sony12 sc s)
/-- `encode sony15` (R165). -/
def execEncodeSony15 (sc : Scancode) (s : State) : Host.Outcome State Fault Refusal := .next (encodeOp .sony15 sc s)
/-- `encode sony20` (R166). -/
def execEncodeSony20 (sc : Scancode) (s : State) : Host.Outcome State Fault Refusal := .next (encodeOp .sony20 sc s)
/-- `encode nec` (R157). -/
def execEncodeNec (sc : Scancode) (s : State) : Host.Outcome State Fault Refusal := .next (encodeOp .nec sc s)
/-- `encode necx` (R158). -/
def execEncodeNecx (sc : Scancode) (s : State) : Host.Outcome State Fault Refusal := .next (encodeOp .necx sc s)
/-- `encode nec32` (R159). -/
def execEncodeNec32 (sc : Scancode) (s : State) : Host.Outcome State Fault Refusal := .next (encodeOp .nec32 sc s)
/-- `encode sanyo` (R161). -/
def execEncodeSanyo (sc : Scancode) (s : State) : Host.Outcome State Fault Refusal := .next (encodeOp .sanyo sc s)
/-- `encode sharp` (R162). -/
def execEncodeSharp (sc : Scancode) (s : State) : Host.Outcome State Fault Refusal := .next (encodeOp .sharp sc s)

end Sys2Proof.Machine
end

