-- ==== Sys2Proof/Machine/Transport.lean ====
section
/-!
DEFINITION. TXOPEN, TXSEND and TXCLOSE (42_transport.md R190 to R203).
-/

namespace Sys2Proof.Machine

/-- `txopen <proto>` (R192); a protocol id of 9 to 15 is refused (R98, R285). -/
def execTxopen (sel : BitVec 4) (s : State) : Host.Outcome State Fault Refusal :=
  match Proto.ofSel sel with
  | some p => .next (openHandle p s)
  | none => .next s.illegal

/-- TXSEND under a protocol: NotOpen, ProtocolMismatch, then SendFrame, whose result is ERR (R197, R285). -/
def txsendOp (p : Proto) (sc : Scancode) (s : State) : State :=
  if !s.txOpen then s.fail .notOpen
  else if p ≠ s.txProto then s.fail .protocolMismatch
  else
    let r := sendFrame p sc s
    if r.1 = .ok then r.2.done else r.2.fail r.1

/-- `txsend <proto>, <scancode>` (R197); a protocol id of 9 to 15 is refused (R98, R285). -/
def execTxsend (sel : BitVec 4) (sc : Scancode) (s : State) : Host.Outcome State Fault Refusal :=
  match Proto.ofSel sel with
  | some p => .next (txsendOp p sc s)
  | none => .next s.illegal

/-- `txclose` (R202). While a ramp is in flight it is held (R203): nothing happens here, and the step that would perform
it leaves the request with the host (Machine.hostReady, log 6). -/
def execTxclose (s : State) : Host.Outcome State Fault Refusal :=
  if held .txclose s then .next s else .next (closeHandle s)

end Sys2Proof.Machine
end

