-- ==== Sys2Proof/Machine/Valid.lean ====
section
/-!
DEFINITION. VALID, one meaning per protocol (40_protocol_table.md R128 to R137).
-/

namespace Sys2Proof.Machine

/-- Template of every `valid <proto>, <scancode>`: V takes the answer, ERR 0 whatever the answer (R128). -/
def validOp (p : Proto) (sc : Scancode) (s : State) : State := (s.setV (isValid s.cfg p sc)).done

/-- `valid jvc` (R129). -/
def execValidJvc (sc : Scancode) (s : State) : Host.Outcome State Fault Refusal := .next (validOp .jvc sc s)
/-- `valid sony12` (R130). -/
def execValidSony12 (sc : Scancode) (s : State) : Host.Outcome State Fault Refusal := .next (validOp .sony12 sc s)
/-- `valid sony15` (R131). -/
def execValidSony15 (sc : Scancode) (s : State) : Host.Outcome State Fault Refusal := .next (validOp .sony15 sc s)
/-- `valid sony20` (R132). -/
def execValidSony20 (sc : Scancode) (s : State) : Host.Outcome State Fault Refusal := .next (validOp .sony20 sc s)
/-- `valid nec` (R133). -/
def execValidNec (sc : Scancode) (s : State) : Host.Outcome State Fault Refusal := .next (validOp .nec sc s)
/-- `valid necx` (R134). -/
def execValidNecx (sc : Scancode) (s : State) : Host.Outcome State Fault Refusal := .next (validOp .necx sc s)
/-- `valid nec32` (R135). -/
def execValidNec32 (sc : Scancode) (s : State) : Host.Outcome State Fault Refusal := .next (validOp .nec32 sc s)
/-- `valid sanyo` (R136). -/
def execValidSanyo (sc : Scancode) (s : State) : Host.Outcome State Fault Refusal := .next (validOp .sanyo sc s)
/-- `valid sharp` (R137). -/
def execValidSharp (sc : Scancode) (s : State) : Host.Outcome State Fault Refusal := .next (validOp .sharp sc s)

end Sys2Proof.Machine
end

