-- ==== Sys2Proof/Machine/Dispatch.lean ====
section
/-! DEFINITION. The dispatch of the host operations, one arm per constructor of Instr. -/

namespace Sys2Proof.Machine

def exec (i : Instr) (s : State) : Host.Outcome State Fault Refusal :=
  match i with
  | .validJvc sc => Sys2Proof.Machine.execValidJvc sc s
  | .validSony12 sc => Sys2Proof.Machine.execValidSony12 sc s
  | .validSony15 sc => Sys2Proof.Machine.execValidSony15 sc s
  | .validSony20 sc => Sys2Proof.Machine.execValidSony20 sc s
  | .validNec sc => Sys2Proof.Machine.execValidNec sc s
  | .validNecx sc => Sys2Proof.Machine.execValidNecx sc s
  | .validNec32 sc => Sys2Proof.Machine.execValidNec32 sc s
  | .validSanyo sc => Sys2Proof.Machine.execValidSanyo sc s
  | .validSharp sc => Sys2Proof.Machine.execValidSharp sc s
  | .encodeJvc sc => Sys2Proof.Machine.execEncodeJvc sc s
  | .encodeSony12 sc => Sys2Proof.Machine.execEncodeSony12 sc s
  | .encodeSony15 sc => Sys2Proof.Machine.execEncodeSony15 sc s
  | .encodeSony20 sc => Sys2Proof.Machine.execEncodeSony20 sc s
  | .encodeNec sc => Sys2Proof.Machine.execEncodeNec sc s
  | .encodeNecx sc => Sys2Proof.Machine.execEncodeNecx sc s
  | .encodeNec32 sc => Sys2Proof.Machine.execEncodeNec32 sc s
  | .encodeSanyo sc => Sys2Proof.Machine.execEncodeSanyo sc s
  | .encodeSharp sc => Sys2Proof.Machine.execEncodeSharp sc s
  | .txopen sel => Sys2Proof.Machine.execTxopen sel s
  | .txsend sel sc => Sys2Proof.Machine.execTxsend sel sc s
  | .txclose => Sys2Proof.Machine.execTxclose s
  | .update c p => Sys2Proof.Machine.execUpdate c p s
  | .pressPowerToggle => Sys2Proof.Machine.execPressPowerToggle s
  | .pressTempDown => Sys2Proof.Machine.execPressTempDown s
  | .pressTempUp => Sys2Proof.Machine.execPressTempUp s

end Sys2Proof.Machine
end

