-- ==== Sys2Proof/Machine/Agents.lean ====
section
/-!
DEFINITION. Which agent takes the next step, and what it does (20_memory.md R73, R74; 60_exceptions.md R292;
43_controller.md R256).
-/

namespace Sys2Proof.Machine

/-! ### Whose turn it is -/

/-- The host has a request and it is not held (R292). A request that names no operation is never held. -/
def hostReady (s : State) : Bool :=
  match s.requests with
  | [] => false
  | w :: _ =>
    match decode w with
    | .ok i => !held i s
    | .error _ => true

/-- RAMP_PRESS or TICK is enabled; never both (R251, R255). -/
def internalReady (s : State) : Bool := pressDue s || tickReady s

/-- Who moves if both could: the next entry of the schedule, or a free value (R292, log 2). -/
def State.wantedTurn (s : State) : Turn :=
  match s.schedule with
  | t :: _ => t
  | [] => Config.freeTurn s.draws

/-- The agent that moves next (R292): the only enabled one, or the wanted one. Where none is enabled the internal side
answers, with its refusal. -/
def nextTurn (s : State) : Turn :=
  match hostReady s, internalReady s with
  | true, true => s.wantedTurn
  | true, false => .host
  | false, _ => .internal

/-- Turn `t` is taken: the schedule's next entry is used up if it asked for `t`, and kept otherwise (it asked for an
agent that could not move); with no entry left the draw counter advances (log 2). -/
def State.takeTurn (s : State) (t : Turn) : State :=
  match s.schedule with
  | t' :: ts => if t' = t then { s with schedule := ts } else s
  | [] => { s with draws := s.draws + 1 }

/-! ### What the agents do -/

/-- The host's request leaves its queue. -/
def State.dropRequest (s : State) : State := { s with requests := s.requests.tail }

/-- The host's next request is decoded and performed (R97, R100). -/
def runRequest (s : State) : Host.Outcome State Fault Refusal :=
  match s.requests with
  | [] => .next s
  | w :: _ =>
    match decode w with
    | .ok i => exec i s.dropRequest
    | .error _ => .next s.dropRequest.illegal

/-- The enabled internal step: a due press, else a tick, which is refused at the last value of TIME (R40, R255, R256).
-/
def runInternal (s : State) : Host.Outcome State Fault Refusal :=
  if pressDue s then .next (rampPress s)
  else if tickReady s then .next (tick s)
  else .refused .tickAtEndOfTime

/-- One atomic step of one agent (R70, R74). -/
def runTurn (s : State) : Host.Outcome State Fault Refusal :=
  match nextTurn s with
  | .host => runRequest (s.takeTurn .host)
  | .internal => runInternal (s.takeTurn .internal)

/-- The host's next request is `w`, and it is the host's turn: what a program loader does for one request (log 1). -/
def State.offerRequest (s : State) (w : Request) : State :=
  { s with requests := w :: s.requests, schedule := .host :: s.schedule }

end Sys2Proof.Machine
end

