-- ==== Sys2Proof/Machine/Step.lean ====
section
/-! DEFINITION. The step of the block, and how one request is placed before it (log 1). -/

namespace Sys2Proof.Machine

/-- One step: one agent's atomic transition (20_memory.md R74). -/
def step (s : State) : Host.Outcome State Fault Refusal := runTurn s

/-- The state in which the request whose table bits are `w` is the host's next, and the host moves next. -/
def State.withFetchWord (s : State) (nbits w : Nat) : State := s.offerRequest (tableWord nbits w)

end Sys2Proof.Machine
end

