-- ==== Sys2Proof/Safety.lean ====
section
/-!
DEFINITION. What a configuration must hold (70_reset_and_hazards.md R326), the invariant every step keeps, and the
vocabulary of the claims about TXLOG.
-/

namespace Sys2Proof

open Machine

/-- The sizes that types are made of are the types' own: a configuration cannot give them another value (R11, log 21).
-/
structure Sizes.Typed (z : Sizes) : Prop where
  nProto : z.nProto = Sys2Proof.nProto
  edgeW : z.edgeW = Sys2Proof.edgeW
  scW : z.scW = Sys2Proof.scW
  dwW : z.dwW = Sys2Proof.dwW
  nLevels : z.nLevels = Sys2Proof.nLevels
  nCmd : z.nCmd = Sys2Proof.nCmd
  reqW : z.reqW = Sys2Proof.reqW

/-- What a configuration must hold (R326), and that its sizes are those of the types. -/
structure Config.Ok (c : Config) : Prop where
  typed : c.sizes.Typed
  scancodesValid : ∀ cmd, isValid c c.hpcProto (c.cmdScancode cmd) = true
  edgesFit : ∀ p, (c.row p).maxEdges.toNat ≤ c.ebCap
  lowLeMid : c.lowThreshold ≤ c.midThreshold
  midLeHigh : c.midThreshold ≤ c.highThreshold
  rampBeforeDebounce : 3 * c.tPress < c.tDebounce
  ticksPositive : 1 ≤ c.ticksPerSecond

namespace Machine

/-- The edge buffer's form: ELEN counts the elements that hold a value, at most EB_CAP (R29, R30). -/
structure State.BufferOk (s : State) : Prop where
  counted : s.eb.length = s.elen.toNat
  fits : s.elen.toNat ≤ s.cfg.ebCap

/-- The clock and the timestamps: TIME does not pass its last value, and every timestamp is a past value of TIME
(R40, R282). -/
structure State.ClockOk (s : State) : Prop where
  bounded : s.time ≤ s.cfg.timeMax
  changePast : s.lastPowerChange ≤ s.time
  onPast : s.canTurnOnSince ≤ s.time
  offPast : s.shallTurnOffSince ≤ s.time

/-- The latches: each timer runs only in its own state (R231). -/
structure State.LatchesOk (s : State) : Prop where
  offState : s.isOn = false → s.shallTurnOff = false
  onState : s.isOn = true → s.canTurnOn = false

/-- The handle: the carrier set is the one PT gives the bound protocol (R34). -/
def State.HandleOk (s : State) : Prop :=
  s.txOpen = true → s.txCarrier = (s.cfg.row s.txProto).carrierHz

/-- A ramp in flight: its next press is not past, and its last is due at most 3 * T_PRESS after it was accepted
(R256, R257). -/
def State.RampOk (s : State) : Prop :=
  0 < s.rampRemaining.val →
    s.time ≤ s.rampNext ∧
      s.rampNext + (s.rampRemaining.val - 1) * s.cfg.tPress ≤ s.lastPowerChange + 3 * s.cfg.tPress

/-- The invariant of the block: it holds at reset and every step keeps it. -/
structure State.Inv (s : State) : Prop where
  buffer : s.BufferOk
  clock : s.ClockOk
  latches : s.LatchesOk
  handle : s.HandleOk
  ramp : s.RampOk

/-- The TIME an event of TXLOG is stamped with (R204). -/
def Event.time : Event → Nat
  | .opened t | .carrier t _ | .modePulse t | .closed t | .frame t _ _ | .short t _ _ _ => t

/-- The event is a frame the device took (R204). -/
def Event.isFrame : Event → Bool
  | .frame _ _ _ => true
  | .opened _ | .carrier _ _ | .modePulse _ | .closed _ | .short _ _ _ _ => false

/-- A frame or short write of an event is the encoding of a valid scancode of its protocol (R196, R198). -/
def Event.Genuine (c : Config) : Event → Prop
  | .frame _ p edges => ∃ sc, isValid c p sc = true ∧ edges = encodeFrame c p sc
  | .short _ p edges w => ∃ sc, isValid c p sc = true ∧ edges = encodeFrame c p sc ∧ w ≠ 4 * edges.length
  | .opened _ | .carrier _ _ | .modePulse _ | .closed _ => True

end Machine

end Sys2Proof
end

