-- ==== Sys2Proof/Certificates/Slice0/Obligations.lean ====
section
/-!
DEFINITION. The statements about the model, from the numbered rules of spec/. A statement about a free value holds for
every value of it; where a step uses up a draw, the counter is left open (`draws := t.draws`).
-/

namespace Sys2Proof.Claims

open Sys2Proof Sys2Proof.Machine

/-! ### Vocabulary of the statements -/

/-- The default protocol table and layout, which fix every frame (R121; 00_scope.md section 4.4). -/
def DefaultEncoder (c : Config) : Prop := c.table = ProtoTable.default ∧ c.layout = Layout.default

/-- The default protocol table, layout and sizes (R11, R121). -/
def DefaultTables (c : Config) : Prop := DefaultEncoder c ∧ c.sizes = Sizes.default

/-- Element `i` is `n` microseconds. -/
def At (l : List Edge) (i n : Nat) : Prop := l[i]? = some (BitVec.ofNat 32 n)

/-- From element `start`: the bits of `v`, least significant first, each a pulse and a space that carries it (R155). -/
def SpaceBits (l : List Edge) (start pulse space0 space1 : Nat) {n : Nat} (v : BitVec n) : Prop :=
  ∀ i, i < n → At l (start + 2 * i) pulse ∧ At l (start + 2 * i + 1) (if v.getLsbD i then space1 else space0)

/-- A NEC-family frame of four bytes (R156). -/
def NecWire (l : List Edge) (b0 b1 b2 b3 : BitVec 8) : Prop :=
  l.length = 67 ∧ At l 0 9000 ∧ At l 1 4500 ∧ SpaceBits l 2 563 563 1688 b0 ∧ SpaceBits l 18 563 563 1688 b1 ∧
    SpaceBits l 34 563 563 1688 b2 ∧ SpaceBits l 50 563 563 1688 b3 ∧ At l 66 563

/-- A JVC frame: the byte s[15:8] first (R160). -/
def JvcWire (l : List Edge) (sc : Scancode) : Prop :=
  l.length = 35 ∧ At l 0 8400 ∧ At l 1 4200 ∧ SpaceBits l 2 525 525 1575 (sc.extractLsb' 8 8) ∧
    SpaceBits l 18 525 525 1575 (sc.extractLsb' 0 8) ∧ At l 34 525

/-- A SANYO frame: address, complement, data, complement (R161). -/
def SanyoWire (l : List Edge) (sc : Scancode) : Prop :=
  l.length = 87 ∧ At l 0 9000 ∧ At l 1 4500 ∧ SpaceBits l 2 563 563 1688 (sc.extractLsb' 8 13) ∧
    SpaceBits l 28 563 563 1688 (~~~(sc.extractLsb' 8 13)) ∧ SpaceBits l 54 563 563 1688 (sc.extractLsb' 0 8) ∧
    SpaceBits l 70 563 563 1688 (~~~(sc.extractLsb' 0 8)) ∧ At l 86 563

/-- A SHARP frame: two halves of 5 + 8 + 2 bits, the second with data and trailer complemented (R162). -/
def SharpWire (l : List Edge) (sc : Scancode) : Prop :=
  l.length = 63 ∧ SpaceBits l 0 320 1000 2000 (sc.extractLsb' 8 5) ∧
    SpaceBits l 10 320 1000 2000 (sc.extractLsb' 0 8) ∧ SpaceBits l 26 320 1000 2000 0b01#2 ∧ At l 30 320 ∧
    At l 31 40000 ∧ SpaceBits l 32 320 1000 2000 (sc.extractLsb' 8 5) ∧
    SpaceBits l 42 320 1000 2000 (~~~(sc.extractLsb' 0 8)) ∧ SpaceBits l 58 320 1000 2000 0b10#2 ∧ At l 62 320

/-- A SONY frame of the `n` bits of `v`, least significant first: the pulse carries the bit, and the space after the
last bit is left out (R163). -/
def SonyWire (l : List Edge) {n : Nat} (v : BitVec n) : Prop :=
  l.length = 2 * n + 1 ∧ At l 0 2400 ∧ At l 1 600 ∧
    ∀ k, k < n → At l (2 + 2 * k) (if v.getLsbD k then 1200 else 600) ∧ (k < n - 1 → At l (3 + 2 * k) 600)

/-- ENCODE `i` on a valid scancode: it completes, the frame that `wire` describes is in EB with its length in ELEN, ERR
is 0, and nothing else changes. -/
def Encodes (i : Instr) (s : State) (wire : List Edge → Prop) : Prop :=
  ∃ t, exec i s = .next t ∧ wire t.eb ∧
    t = { s with eb := t.eb, elen := BitVec.ofNat 10 t.eb.length, err := .ok }

/-- A frame of `p` passes the bound check of R167, and is not above the capacity of EB (R61; the model's own part of the
check, log 22). -/
def Fits (s : State) (p : Proto) : Prop :=
  frameLength s.cfg.layout p ≤ (s.cfg.row p).maxEdges.toNat ∧ frameLength s.cfg.layout p ≤ s.cfg.sizes.ebCap

/-- Sending `(p, sc)` in `s` gets past the checks of SendFrame: a valid scancode whose frame fits (R196). -/
def Sendable (s : State) (p : Proto) (sc : Scancode) : Prop := isValid s.cfg p sc = true ∧ Fits s p

/-- `t` is `s` after the frame of `(p, sc)` was stored and the device took all of it (R196). -/
def Sent (s t : State) (p : Proto) (sc : Scancode) : Prop :=
  t = { s with eb := encodeFrame s.cfg p sc, elen := BitVec.ofNat 10 (frameLength s.cfg.layout p),
               txlog := s.txlog ++ [.frame s.time p (encodeFrame s.cfg p sc)],
               writeAnswers := s.writeAnswers.tail, draws := t.draws }

/-- `t` is `s` after the frame of `(p, sc)` was stored and the device reported another byte count (R196, R199). -/
def CutShort (s t : State) (p : Proto) (sc : Scancode) : Prop :=
  t = { s with eb := encodeFrame s.cfg p sc, elen := BitVec.ofNat 10 (frameLength s.cfg.layout p),
               txlog := s.txlog ++ [.short s.time p (encodeFrame s.cfg p sc) s.nextWrite],
               writeAnswers := s.writeAnswers.tail, draws := t.draws }

/-- The handle is open and bound to the controller's protocol, and the command's scancode passes the checks (R205). -/
def CommandReady (s : State) (cmd : Command) : Prop :=
  s.txOpen = true ∧ s.txProto = s.cfg.hpcProto ∧ Sendable s s.cfg.hpcProto (s.cfg.cmdScancode cmd)

/-- The device takes the whole of the next command frame (R200). -/
def DeviceTakes (s : State) : Prop := s.nextWrite = 4 * frameLength s.cfg.layout s.cfg.hpcProto

/-- Send(cmd) ends in `e` before the device: one of its four refusals, in the order of the checks (R196, R205). -/
def SendRefused (s : State) (cmd : Command) (e : Err) : Prop :=
  (s.txOpen = false ∧ e = .notOpen) ∨
  (s.txOpen = true ∧ s.txProto ≠ s.cfg.hpcProto ∧ e = .protocolMismatch) ∨
  (s.txOpen = true ∧ s.txProto = s.cfg.hpcProto ∧ isValid s.cfg s.cfg.hpcProto (s.cfg.cmdScancode cmd) = false ∧
    e = .invalidScancode) ∨
  (s.txOpen = true ∧ s.txProto = s.cfg.hpcProto ∧ isValid s.cfg s.cfg.hpcProto (s.cfg.cmdScancode cmd) = true ∧
    ¬Fits s s.cfg.hpcProto ∧ e = .noEncoding)

/-- What the device steps of TXOPEN leave, in the order of R192, under the answers `o`. -/
def OpenResult (p : Proto) (o : OpenAnswers) (s t : State) : Prop :=
  let used : State := { s with openAnswers := s.openAnswers.tail, draws := t.draws }
  let opened := Event.opened s.time
  let closed := Event.closed s.time
  let carrier := Event.carrier s.time (s.cfg.row p).carrierHz
  if o.openOk = false then t = { used with err := .openCannotOpen }
  else if o.queryOk = false then
    t = { used with txlog := s.txlog ++ [opened, closed], err := .openCannotQueryFeatures }
  else if o.canSendRaw = false then t = { used with txlog := s.txlog ++ [opened, closed], err := .openNoRawSend }
  else if o.canSetCarrier = false then t = { used with txlog := s.txlog ++ [opened, closed], err := .openNoSetCarrier }
  else if o.carrierOk = false then
    t = { used with txlog := s.txlog ++ [opened, closed], err := .openCarrierRejected }
  else if o.modeOk = false then
    t = { used with txlog := s.txlog ++ [opened, carrier, closed], err := .openSendModeFailed }
  else
    t = { used with txOpen := true, txProto := p, txCarrier := (s.cfg.row p).carrierHz,
                    txlog := s.txlog ++ [opened, carrier, .modePulse s.time], err := .ok }

/-- `s` with the "can turn on" timer running: started now if it was not (R223). -/
def onTimerRunning (s : State) : State :=
  { s with canTurnOn := true, canTurnOnSince := if s.canTurnOn then s.canTurnOnSince else s.time }

/-- `s` with the "shall turn off" timer running: started now if it was not (R225). -/
def offTimerRunning (s : State) : State :=
  { s with shallTurnOff := true, shallTurnOffSince := if s.shallTurnOff then s.shallTurnOffSince else s.time }

/-- `s` after the level request for `g` (R226): ignored if `g` is the level or the debounce runs, else the ramp is
armed. -/
def levelRequested (g : Level) (s : State) : State :=
  if g = s.level ∨ s.time < s.lastPowerChange + s.cfg.tDebounce then s
  else { s with rampRemaining := pressCount g s.level, rampNext := s.time, lastPowerChange := s.time }

/-- `s` with one press of the ramp less to send, the next due T_PRESS later (R251). -/
def pressCounted (s : State) : State :=
  { s with rampRemaining := ⟨s.rampRemaining.val - 1, Nat.lt_of_le_of_lt (Nat.sub_le _ _) s.rampRemaining.isLt⟩,
           rampNext := s.rampNext + s.cfg.tPress }

/-- The UPDATE is not held (R229). -/
def NotHeld (c p : Power) (s : State) : Prop :=
  ¬(s.isOn = true ∧ tier s.cfg (availableDw c p) ≠ s.level ∧ s.lastPowerChange + s.cfg.tDebounce ≤ s.time ∧
    0 < s.rampRemaining.val)

end Sys2Proof.Claims

open Sys2Proof Sys2Proof.Machine Sys2Proof.Claims

/-! ### Requests (30_encoding.md) -/

/-- Every well-formed instruction is what the decoder reads from its request word (R90 to R96): no bit of an operand is
dropped. -/
def Obligations.DecodeInvertsEncode : Prop :=
  ∀ i : Instr, i.WellFormed → decode (encode i) = .ok i

/-- Each accepted word has one meaning: the decoded instruction is well formed, and encoding it gives the word back in
OP, SEL and the fields its format reads, with zeros in the ignored fields (R91, R99, R102). -/
def Obligations.EncodeReproducesReadFields : Prop :=
  ∀ (w : Request) (i : Instr), decode w = .ok i → i.WellFormed ∧ encode i = w &&& i.readMask

/-- The decoder follows the opcode table: the row of the instruction it reads selects the word, no other row does, and
it reads an instruction exactly when some row selects the word and, for TXOPEN and TXSEND, SEL is at most 8 (R96). -/
def Obligations.DecodeFollowsOpcodeTable : Prop :=
  (∀ (w : Request) (i : Instr), decode w = .ok i →
    i.row ∈ opcodeRows ∧ i.row.selects w = true ∧ ∀ r ∈ opcodeRows, r.selects w = true → r = i.row) ∧
  (∀ w : Request, (∃ i, decode w = .ok i) ↔
    (∃ r ∈ opcodeRows, r.selects w = true) ∧
      ((w.extractLsb' 68 4 = 3#4 ∨ w.extractLsb' 68 4 = 4#4) → (w.extractLsb' 64 4).toNat ≤ 8))

/-- A few request words written out from the encoding tables of the spec decode to the operations they stand for, and
reserved ones to none (R90, R96; 95_test_vectors.md section 2.9). -/
def Obligations.SpecWordsDecode : Prop :=
  decode 0x150012ED34_00000000#72 = .ok (.validNecx 0x12ED34#32) ∧
  decode 0x24000010EF_DEADBEEF#72 = .ok (.encodeNec 0x10EF#32) ∧
  decode 0x3412345678_9ABCDEF0#72 = .ok (.txopen 4#4) ∧
  decode 0x4100010015_00000000#72 = .ok (.txsend 1#4 0x010015#32) ∧
  decode 0x5000000000_00000000#72 = .ok .txclose ∧
  decode 0x6000000BB8_00001F40#72 = .ok (.update 3000#32 8000#32) ∧
  decode 0x7000000000_00000000#72 = .ok .pressPowerToggle ∧
  decode 0x0000000000_00000000#72 = .error .reservedOp ∧
  decode 0x1900000000_00000000#72 = .error .protocolOutOfRange ∧
  decode 0x7300000000_00000000#72 = .error .commandOutOfRange ∧
  decode 0x5100000000_00000000#72 = .error .selNotZero

/-- Fields a format ignores do not change the operation: words that agree in OP and SEL, and in A where OP is 1, 2, 4 or
6 and in B where OP is 6, decode alike (R91, R99). -/
def Obligations.IgnoredFieldsAreNotRead : Prop :=
  ∀ w w' : Request, w.extractLsb' 64 8 = w'.extractLsb' 64 8 →
    ((w.extractLsb' 68 4 ∈ [1#4, 2#4, 4#4, 6#4]) → w.extractLsb' 32 32 = w'.extractLsb' 32 32) →
    (w.extractLsb' 68 4 = 6#4 → w.extractLsb' 0 32 = w'.extractLsb' 0 32) → decode w = decode w'

/-- A request with a reserved OP or a SEL out of its format's range is refused: when it is performed, ERR takes 10, the
request is gone, and nothing else changes (R97, R98, R285). The turn taken is the model's own (log 2, log 5). -/
def Obligations.IllegalRequestsOnlySetErr : Prop :=
  ∀ (s : State) (w : Request) (rest : List Request) (op sel : BitVec 4),
    op = w.extractLsb' 68 4 → sel = w.extractLsb' 64 4 →
    (op = 0#4 ∨ 8 ≤ op.toNat ∨ (op ∈ [1#4, 2#4, 3#4, 4#4] ∧ 9 ≤ sel.toNat) ∨ (op = 7#4 ∧ 3 ≤ sel.toNat) ∨
      (op ∈ [5#4, 6#4] ∧ sel ≠ 0#4)) →
    s.requests = w :: rest → nextTurn s = .host →
    ∃ t, step s = .next t ∧
      t = { s with requests := rest, err := .illegalRequest, schedule := t.schedule, draws := t.draws }

/-! ### The step (20_memory.md, 60_exceptions.md) -/

/-- When it is the host's turn and its next word decodes to `i`, the step is exec of `i` in the state in which the turn
is taken and the word has left the queue (R70, R74, R100). The turn and the queue are the model's own (log 1, log 2). -/
def Obligations.StepPerformsDecodedRequest : Prop :=
  ∀ (s : State) (w : Request) (rest : List Request) (i : Instr),
    s.requests = w :: rest → decode w = .ok i → nextTurn s = .host →
    step s = exec i { s.takeTurn .host with requests := rest } ∧
      (s.takeTurn .host) = { s with schedule := (s.takeTurn .host).schedule, draws := (s.takeTurn .host).draws }

/-- Whose turn it is: only an enabled agent moves, and where both sides are enabled the schedule's next entry decides
(R292). -/
def Obligations.OnlyEnabledAgentsMove : Prop :=
  ∀ s : State,
    (hostReady s = true ∧ (pressDue s = true ∨ tickReady s = true) → ∀ t ts, s.schedule = t :: ts → nextTurn s = t) ∧
    (hostReady s = true ∧ pressDue s = false ∧ tickReady s = false → nextTurn s = .host) ∧
    (hostReady s = false → nextTurn s = .internal) ∧
    (hostReady s = true ↔ ∃ w rest, s.requests = w :: rest ∧ ∀ i, decode w = .ok i → held i s = false)

/-- A held UPDATE or TXCLOSE stays with the host: the step is the ramp worker's or the timebase's, and the request is
still the host's next (R203, R229). -/
def Obligations.HeldRequestWaits : Prop :=
  ∀ (s : State) (w : Request) (rest : List Request) (i : Instr),
    s.requests = w :: rest → decode w = .ok i → held i s = true →
    s.time < 2 ^ s.cfg.sizes.timeW - 1 →
    ∃ t, step s = .next t ∧ t.requests = s.requests ∧ t.err = s.err ∧ t.isOn = s.isOn ∧
      ((pressDue s = true ∧ t.rampRemaining.val + 1 = s.rampRemaining.val) ∨ (pressDue s = false ∧ t.time = s.time + 1))

/-- Every host operation ends in a next state, whatever the state and the operands: no failure stops the block (R290).
That a held TXCLOSE or UPDATE, which R203 and R229 call not enabled, answers the same state is the model's choice (log
6). -/
def Obligations.EveryOperationCompletes : Prop :=
  ∀ (i : Instr) (s : State), ∃ t, exec i s = .next t

/-- The internal step when it is the internal side's turn: a due press is taken and TIME stands; with no press due TICK
adds 1 to TIME and changes nothing else but the schedule and the draw counter; at the last value of TIME, 2^TIME_W - 1,
the tick is refused (R40, R255, R256). -/
def Obligations.PressBeforeTick : Prop :=
  ∀ s : State, nextTurn s = .internal →
    (0 < s.rampRemaining.val ∧ s.time = s.rampNext →
      ∃ t, step s = .next t ∧ t.time = s.time ∧ t.rampRemaining.val + 1 = s.rampRemaining.val ∧
        t.rampNext = s.rampNext + s.cfg.tPress) ∧
    (¬(0 < s.rampRemaining.val ∧ s.time = s.rampNext) ∧ s.time < 2 ^ s.cfg.sizes.timeW - 1 →
      ∃ t, step s = .next t ∧ t = { s with time := s.time + 1, schedule := t.schedule, draws := t.draws }) ∧
    (¬(0 < s.rampRemaining.val ∧ s.time = s.rampNext) ∧ s.time = 2 ^ s.cfg.sizes.timeW - 1 →
      step s = .refused .tickAtEndOfTime)

/-! ### VALID (40_protocol_table.md) -/

/-- The validity predicate, whatever the table: the mask check, and for NECX and NEC32 that the leading byte is not the
complement of the next (R123 to R127). -/
def Obligations.ValidityPredicate : Prop :=
  ∀ (c : Config) (p : Proto) (sc : Scancode), isValid c p sc = true ↔
    sc &&& ~~~(c.row p).scancodeMask = 0#32 ∧
    (p = .necx → sc.extractLsb' 16 8 ≠ ~~~(sc.extractLsb' 8 8)) ∧
    (p = .nec32 → sc.extractLsb' 24 8 ≠ ~~~(sc.extractLsb' 16 8))

/-- VALID of the seven protocols with a mask check only, under the default table: V is the check of the rule, ERR 0,
nothing else changes (R128 to R133, R136, R137). -/
def Obligations.ValidMaskProtocols : Prop :=
  ∀ (s : State) (sc : Scancode), s.cfg.table = ProtoTable.default →
    exec (.validJvc sc) s = .next { s with v := decide (sc &&& 0xFFFF0000#32 = 0), err := .ok } ∧
    exec (.validSony12 sc) s = .next { s with v := decide (sc &&& 0xFFE0FF80#32 = 0), err := .ok } ∧
    exec (.validSony15 sc) s = .next { s with v := decide (sc &&& 0xFF00FF80#32 = 0), err := .ok } ∧
    exec (.validSony20 sc) s = .next { s with v := decide (sc &&& 0xFFE00080#32 = 0), err := .ok } ∧
    exec (.validNec sc) s = .next { s with v := decide (sc &&& 0xFFFF0000#32 = 0), err := .ok } ∧
    exec (.validSanyo sc) s = .next { s with v := decide (sc &&& 0xFFE00000#32 = 0), err := .ok } ∧
    exec (.validSharp sc) s = .next { s with v := decide (sc &&& 0xFFFFE000#32 = 0), err := .ok }

/-- VALID of NECX and NEC32 under the default table: the mask, and the byte check (R128, R134, R135). -/
def Obligations.ValidNecxAndNec32 : Prop :=
  ∀ (s : State) (sc : Scancode), s.cfg.table = ProtoTable.default →
    exec (.validNecx sc) s =
      .next { s with v := decide (sc &&& 0xFF000000#32 = 0 ∧ sc.extractLsb' 16 8 ≠ ~~~(sc.extractLsb' 8 8)),
                     err := .ok } ∧
    exec (.validNec32 sc) s =
      .next { s with v := decide (sc.extractLsb' 24 8 ≠ ~~~(sc.extractLsb' 16 8)), err := .ok }

/-! ### ENCODE (41_encoder.md) -/

/-- The conversion of units to microseconds rounds the product once, half up, and nothing overflows for up to 1000
units, whatever the unit (R153). -/
def Obligations.DurationConversion : Prop :=
  ∀ (k : Nat) (u : Word), k ≤ 1000 → (us k u).toNat = (k * u.toNat + 500) / 1000

/-- The length of a frame depends on the protocol alone, whatever the scancode: it is len(p) of the layout, which by
default is 35, 25, 31, 41, 67, 67, 67, 87 and 63, the declared max_edges of the default table; the bound check refuses a
frame exactly when it is above max_edges or above EB_CAP (log 22), which under the defaults never happens (R61, R167).
-/
def Obligations.FrameLengths : Prop :=
  (∀ (c : Config) (p : Proto) (sc : Scancode), (encodeFrame c p sc).length = frameLength c.layout p) ∧
  Proto.all.map (frameLength Layout.default) = [35, 25, 31, 41, 67, 67, 67, 87, 63] ∧
  (∀ p : Proto, (ProtoTable.default.row p).maxEdges.toNat = frameLength Layout.default p) ∧
  (∀ (c : Config) (p : Proto) (sc : Scancode), tooLong c p (encodeFrame c p sc) = true ↔
    (c.row p).maxEdges.toNat < frameLength c.layout p ∨ c.sizes.ebCap < frameLength c.layout p) ∧
  (∀ (c : Config) (p : Proto) (sc : Scancode), DefaultTables c → tooLong c p (encodeFrame c p sc) = false)

/-- ENCODE NEC, NECX and NEC32 on a valid scancode, under the default table and layout: the 67 edges of the frame and
its four bytes (R156 to R159, R170). -/
def Obligations.EncodeNecFamily : Prop :=
  ∀ (s : State) (sc : Scancode), DefaultTables s.cfg →
    (sc.toNat ≤ 0xFFFF → Encodes (.encodeNec sc) s fun l =>
      NecWire l (sc.extractLsb' 0 8) (~~~(sc.extractLsb' 0 8)) (sc.extractLsb' 0 8) (sc.extractLsb' 8 8)) ∧
    (sc.toNat ≤ 0xFFFFFF → sc.extractLsb' 16 8 ≠ ~~~(sc.extractLsb' 8 8) → Encodes (.encodeNecx sc) s fun l =>
      NecWire l (sc.extractLsb' 16 8) (sc.extractLsb' 8 8) (sc.extractLsb' 0 8) (~~~(sc.extractLsb' 0 8))) ∧
    (sc.extractLsb' 24 8 ≠ ~~~(sc.extractLsb' 16 8) → Encodes (.encodeNec32 sc) s fun l =>
      NecWire l (sc.extractLsb' 24 8) (sc.extractLsb' 16 8) (sc.extractLsb' 8 8) (sc.extractLsb' 0 8))

/-- ENCODE JVC on a valid scancode, under the default table: 35 edges, the address byte first (R160, R170). -/
def Obligations.EncodeJvc : Prop :=
  ∀ (s : State) (sc : Scancode), DefaultTables s.cfg → sc.toNat ≤ 0xFFFF →
    Encodes (.encodeJvc sc) s fun l => JvcWire l sc

/-- ENCODE SANYO on a valid scancode, under the default table and layout: 87 edges (R161, R170). -/
def Obligations.EncodeSanyo : Prop :=
  ∀ (s : State) (sc : Scancode), DefaultTables s.cfg → sc.toNat ≤ 0x1FFFFF →
    Encodes (.encodeSanyo sc) s fun l => SanyoWire l sc

/-- ENCODE SHARP on a valid scancode, under the default table and layout: 63 edges in two halves (R162, R170). -/
def Obligations.EncodeSharp : Prop :=
  ∀ (s : State) (sc : Scancode), DefaultTables s.cfg → sc.toNat ≤ 0x1FFF →
    Encodes (.encodeSharp sc) s fun l => SharpWire l sc

/-- ENCODE SONY12, SONY15 and SONY20 on a valid scancode, under the default table and layout: the pulse carries the bit,
and the fields follow one another (R163 to R166, R170). -/
def Obligations.EncodeSonyFamily : Prop :=
  ∀ (s : State) (sc : Scancode), DefaultTables s.cfg →
    (sc &&& 0xFFE0FF80#32 = 0 → Encodes (.encodeSony12 sc) s fun l =>
      SonyWire l (sc.extractLsb' 16 5 ++ sc.extractLsb' 0 7)) ∧
    (sc &&& 0xFF00FF80#32 = 0 → Encodes (.encodeSony15 sc) s fun l =>
      SonyWire l (sc.extractLsb' 16 8 ++ sc.extractLsb' 0 7)) ∧
    (sc &&& 0xFFE00080#32 = 0 → Encodes (.encodeSony20 sc) s fun l =>
      SonyWire l (sc.extractLsb' 8 8 ++ (sc.extractLsb' 16 5 ++ sc.extractLsb' 0 7)))

/-- ENCODE refuses an invalid scancode before the bound check, and a frame longer than max_edges or than EB (log 22),
under any configuration; EB, ELEN and all else stay (R170, R285, R287). -/
def Obligations.EncodeRefusals : Prop :=
  ∀ (s : State) (p : Proto) (sc : Scancode),
    (isValid s.cfg p sc = false → exec (.encodeOf p sc) s = .next { s with err := .invalidScancode }) ∧
    (isValid s.cfg p sc = true → ¬Fits s p → exec (.encodeOf p sc) s = .next { s with err := .noEncoding })

/-- Every SANYO frame lasts the same time, 84980 microseconds (R161). -/
def Obligations.SanyoFramesLastTheSame : Prop :=
  ∀ (c : Config) (sc : Scancode), DefaultEncoder c → ((encodeFrame c .sanyo sc).map BitVec.toNat).sum = 84980

/-- Scancode bits outside the mask are not read by the encoder, under the default table and layout (R169). -/
def Obligations.FramesReadOnlyMaskedBits : Prop :=
  ∀ (c : Config) (p : Proto) (sc : Scancode), DefaultEncoder c →
    encodeFrame c p sc = encodeFrame c p (sc &&& (c.row p).scancodeMask)

/-- Every frame starts and ends with a pulse (its length is odd), under any configuration; it holds no zero duration,
under the default table and with SONY pulses of 1 to 1000 units (R151, R168). -/
def Obligations.FramesEndOnPulses : Prop :=
  ∀ (c : Config) (p : Proto) (sc : Scancode),
    (encodeFrame c p sc).length % 2 = 1 ∧
    (c.table = ProtoTable.default → 1 ≤ c.layout.sonyUnits1 → c.layout.sonyUnits1 ≤ 1000 → 1 ≤ c.layout.sonyUnits0 →
      c.layout.sonyUnits0 ≤ 1000 → ∀ e ∈ encodeFrame c p sc, 0 < e.toNat)

/-! ### The transport (42_transport.md) -/

/-- TXOPEN with no handle open and a protocol id of 0 to 8: success or one of the six failures by the device's answers,
with the events of the device steps (R192 to R194). -/
def Obligations.TxopenOutcomes : Prop :=
  ∀ (s : State) (p : Proto), s.txOpen = false →
    ∃ t, exec (.txopen p.id) s = .next t ∧ OpenResult p s.nextOpen s t

/-- TXOPEN with a handle open is refused before any device step and draws no answer (R192, R285). -/
def Obligations.TxopenAlreadyOpen : Prop :=
  ∀ (s : State) (p : Proto), s.txOpen = true → exec (.txopen p.id) s = .next { s with err := .alreadyOpen }

/-- TXOPEN and TXSEND under a protocol id of 9 to 15 do what the refusal of such a request does (R98, R285). -/
def Obligations.ProtocolOutOfRangeRefused : Prop :=
  ∀ (s : State) (sel : BitVec 4) (sc : Scancode), 9 ≤ sel.toNat →
    exec (.txopen sel) s = .next { s with err := .illegalRequest } ∧
    exec (.txsend sel sc) s = .next { s with err := .illegalRequest }

/-- No handle leaks: after a TXOPEN that ends in an error, tx_open, tx_proto and tx_carrier are as before, and every
device node it opened is closed in TXLOG (R194). -/
def Obligations.FailedOpenLeaksNoHandle : Prop :=
  ∀ (s t : State) (sel : BitVec 4), exec (.txopen sel) s = .next t → t.err ≠ .ok →
    t.txOpen = s.txOpen ∧ t.txProto = s.txProto ∧ t.txCarrier = s.txCarrier ∧
      ∃ new, t.txlog = s.txlog ++ new ∧ new.count (.opened s.time) = new.count (.closed s.time)

/-- TXSEND's refusals in the order of the checks: NotOpen, ProtocolMismatch, InvalidScancode, NoEncoding; each writes
ERR alone (R197, R285, R287). -/
def Obligations.TxsendRefusals : Prop :=
  ∀ (s : State) (p : Proto) (sc : Scancode),
    (s.txOpen = false → exec (.txsend p.id sc) s = .next { s with err := .notOpen }) ∧
    (s.txOpen = true → p ≠ s.txProto → exec (.txsend p.id sc) s = .next { s with err := .protocolMismatch }) ∧
    (s.txOpen = true → p = s.txProto → isValid s.cfg p sc = false →
      exec (.txsend p.id sc) s = .next { s with err := .invalidScancode }) ∧
    (s.txOpen = true → p = s.txProto → isValid s.cfg p sc = true → ¬Fits s p →
      exec (.txsend p.id sc) s = .next { s with err := .noEncoding })

/-- TXSEND past its checks: the frame is stored, and either the device took 4 * len bytes and a Frame is logged with ERR
0, or a Short with WriteError (R196, R197, R199). -/
def Obligations.TxsendOutcomes : Prop :=
  ∀ (s : State) (p : Proto) (sc : Scancode), s.txOpen = true → p = s.txProto → Sendable s p sc →
    (s.nextWrite = 4 * frameLength s.cfg.layout p →
      ∃ t, exec (.txsend p.id sc) s = .next t ∧ Sent { s with err := .ok } t p sc) ∧
    (s.nextWrite ≠ 4 * frameLength s.cfg.layout p →
      ∃ t, exec (.txsend p.id sc) s = .next t ∧ CutShort { s with err := .writeError } t p sc)

/-- TXCLOSE: with no ramp in flight it releases an open handle and logs Closed, or ends in NotOpen; with a ramp in
flight it waits and changes nothing (R202, R203). tx_proto and tx_carrier hold no value afterwards and are left open. -/
def Obligations.TxcloseOutcomes : Prop :=
  ∀ s : State,
    (s.rampRemaining = 0 → s.txOpen = true →
      ∃ t, exec .txclose s = .next t ∧
        t = { s with txOpen := false, txProto := t.txProto, txCarrier := t.txCarrier,
                     txlog := s.txlog ++ [.closed s.time], err := .ok, draws := t.draws }) ∧
    (s.rampRemaining = 0 → s.txOpen = false → exec .txclose s = .next { s with err := .notOpen }) ∧
    (s.rampRemaining ≠ 0 → exec .txclose s = .next s)

/-! ### The controller (43_controller.md) -/

/-- available_dw is the exact difference of two's complement operands and does not wrap (R95, R221). -/
def Obligations.AvailablePowerExact : Prop :=
  ∀ c p : Power, availableDw c p = p.toInt - c.toInt ∧ -(2 ^ 32 - 1) ≤ availableDw c p ∧ availableDw c p ≤ 2 ^ 32 - 1

/-- The target level of available_dw, with thresholds in order; it is never 4 (R224). -/
def Obligations.TargetLevel : Prop :=
  ∀ (c : Config) (a : Int), c.lowThreshold ≤ c.midThreshold → c.midThreshold ≤ c.highThreshold →
    (tier c a = 0 ↔ a ≤ c.lowThreshold) ∧
    (tier c a = 1 ↔ c.lowThreshold < a ∧ a ≤ c.midThreshold) ∧
    (tier c a = 2 ↔ c.midThreshold < a ∧ a ≤ c.highThreshold) ∧
    (tier c a = 3 ↔ c.highThreshold < a) ∧ tier c a ≠ 4

/-- The press count is (target - level + 5) mod 5, zero exactly for the same level, and that many steps up the cycle of
five levels reach the target (R227). -/
def Obligations.PressCounts : Prop :=
  ∀ target level : Level,
    ((pressCount target level).val : Int) = ((target.val : Int) - level.val + 5) % 5 ∧
    (pressCount target level = 0 ↔ target = level) ∧
    (level.val + (pressCount target level).val) % 5 = target.val

/-- UPDATE while Off that does not fire the timer: at or below Low it clears the latch; above Low it starts or keeps the
timer; it sends nothing and ERR is 0 (R222, R223, R282). -/
def Obligations.UpdateOffWithoutFiring : Prop :=
  ∀ (s : State) (c p : Power), s.isOn = false →
    (availableDw c p ≤ s.cfg.lowThreshold →
      exec (.update c p) s = .next { s with canTurnOn := false, err := .ok }) ∧
    (s.cfg.lowThreshold < availableDw c p → s.time < (onTimerRunning s).canTurnOnSince + s.cfg.tOn →
      exec (.update c p) s = .next { onTimerRunning s with err := .ok })

/-- UPDATE while Off that fires the timer, the handle ready: POWER_TOGGLE is sent; if the device took it the controller
is On at level 0 with the latch cleared; after a short write ERR is WriteError and the shadow state and the latch stay
(R223, R230, R232). -/
def Obligations.UpdateTurnsOn : Prop :=
  ∀ (s : State) (c p : Power), s.isOn = false → s.cfg.lowThreshold < availableDw c p →
    (onTimerRunning s).canTurnOnSince + s.cfg.tOn ≤ s.time → CommandReady s .powerToggle →
    (DeviceTakes s → ∃ t, exec (.update c p) s = .next t ∧
      Sent { onTimerRunning s with isOn := true, level := 0, canTurnOn := false, err := .ok } t s.cfg.hpcProto
        s.cfg.scPowerToggle) ∧
    (¬DeviceTakes s → ∃ t, exec (.update c p) s = .next t ∧
      CutShort { onTimerRunning s with err := .writeError } t s.cfg.hpcProto s.cfg.scPowerToggle)

/-- UPDATE while On and above Low, not held: the level request of the target, and the off timer is reset; nothing is
sent in this step and ERR is 0 (R222, R225, R226, R228). -/
def Obligations.UpdateRequestsLevel : Prop :=
  ∀ (s : State) (c p : Power), s.isOn = true → NotHeld c p s → s.cfg.lowThreshold < availableDw c p →
    exec (.update c p) s =
      .next { levelRequested (tier s.cfg (availableDw c p)) s with shallTurnOff := false, err := .ok }

/-- UPDATE while On and at or below Low, not held, before the off timer has run out: the request for level 0, and the
timer is started or kept (R222, R225, R226). -/
def Obligations.UpdateRunsOffTimer : Prop :=
  ∀ (s : State) (c p : Power), s.isOn = true → NotHeld c p s → availableDw c p ≤ s.cfg.lowThreshold →
    s.time < (offTimerRunning s).shallTurnOffSince + s.cfg.tOff →
    exec (.update c p) s = .next { offTimerRunning (levelRequested 0 s) with err := .ok }

/-- UPDATE while On that fires the off timer, the handle ready: the request for level 0 comes first, then POWER_TOGGLE
is sent; if the device took it the controller is Off with the latch cleared and a ramp just armed goes on; after a short
write ERR is WriteError and the shadow state and the latch stay (R225, R231, R232). -/
def Obligations.UpdateTurnsOff : Prop :=
  ∀ (s : State) (c p : Power), s.isOn = true → NotHeld c p s → availableDw c p ≤ s.cfg.lowThreshold →
    (offTimerRunning s).shallTurnOffSince + s.cfg.tOff ≤ s.time → CommandReady s .powerToggle →
    (DeviceTakes s → ∃ t, exec (.update c p) s = .next t ∧
      Sent { offTimerRunning (levelRequested 0 s) with isOn := false, shallTurnOff := false, err := .ok } t
        s.cfg.hpcProto s.cfg.scPowerToggle) ∧
    (¬DeviceTakes s → ∃ t, exec (.update c p) s = .next t ∧
      CutShort { offTimerRunning (levelRequested 0 s) with err := .writeError } t s.cfg.hpcProto s.cfg.scPowerToggle)

/-- An UPDATE that would fire its timer and whose send is refused before the device ends in the error of the send:
NotOpen, ProtocolMismatch, InvalidScancode or NoEncoding. The timer and an accepted level request stay written, the
shadow state does not change (R222, R232, R287). -/
def Obligations.UpdateSendRefused : Prop :=
  ∀ (s : State) (c p : Power) (e : Err), SendRefused s .powerToggle e →
    (s.isOn = false → s.cfg.lowThreshold < availableDw c p →
      (onTimerRunning s).canTurnOnSince + s.cfg.tOn ≤ s.time →
      exec (.update c p) s = .next { onTimerRunning s with err := e }) ∧
    (s.isOn = true → NotHeld c p s → availableDw c p ≤ s.cfg.lowThreshold →
      (offTimerRunning s).shallTurnOffSince + s.cfg.tOff ≤ s.time →
      exec (.update c p) s = .next { offTimerRunning (levelRequested 0 s) with err := e })

/-- An UPDATE that would start a ramp while one is in flight waits and changes nothing (R229). -/
def Obligations.UpdateWaitsForRamp : Prop :=
  ∀ (s : State) (c p : Power), ¬NotHeld c p s → exec (.update c p) s = .next s

/-- PRESS POWER_TOGGLE with the handle ready and the frame taken: the frame is sent and the shadow power state inverted,
On at level 0 or Off with the level kept, each with its latch cleared (R233, R234). -/
def Obligations.PressPowerToggle : Prop :=
  ∀ s : State, CommandReady s .powerToggle → DeviceTakes s →
    (s.isOn = false → ∃ t, exec .pressPowerToggle s = .next t ∧
      Sent { s with isOn := true, level := 0, canTurnOn := false, err := .ok } t s.cfg.hpcProto s.cfg.scPowerToggle) ∧
    (s.isOn = true → ∃ t, exec .pressPowerToggle s = .next t ∧
      Sent { s with isOn := false, shallTurnOff := false, err := .ok } t s.cfg.hpcProto s.cfg.scPowerToggle)

/-- PRESS TEMP_DOWN and TEMP_UP with the handle ready and the frame taken: the frame is sent, and the controller's state
does not change (R233, R235, R236). -/
def Obligations.PressTemperature : Prop :=
  ∀ s : State, DeviceTakes s →
    (CommandReady s .tempDown → ∃ t, exec .pressTempDown s = .next t ∧
      Sent { s with err := .ok } t s.cfg.hpcProto s.cfg.scTempDown) ∧
    (CommandReady s .tempUp → ∃ t, exec .pressTempUp s = .next t ∧
      Sent { s with err := .ok } t s.cfg.hpcProto s.cfg.scTempUp)

/-- A PRESS that fails: NotOpen, ProtocolMismatch, InvalidScancode and NoEncoding write ERR alone; a short write also
leaves the frame in EB and a Short in TXLOG; the shadow state never changes (R205, R232, R233, R287). -/
def Obligations.PressFailures : Prop :=
  ∀ (s : State) (i : Instr) (cmd : Command),
    (i, cmd) ∈ [(Instr.pressPowerToggle, Command.powerToggle), (.pressTempDown, .tempDown), (.pressTempUp, .tempUp)] →
    (s.txOpen = false → exec i s = .next { s with err := .notOpen }) ∧
    (s.txOpen = true → s.txProto ≠ s.cfg.hpcProto → exec i s = .next { s with err := .protocolMismatch }) ∧
    (s.txOpen = true → s.txProto = s.cfg.hpcProto → isValid s.cfg s.cfg.hpcProto (s.cfg.cmdScancode cmd) = false →
      exec i s = .next { s with err := .invalidScancode }) ∧
    (s.txOpen = true → s.txProto = s.cfg.hpcProto → isValid s.cfg s.cfg.hpcProto (s.cfg.cmdScancode cmd) = true →
      ¬Fits s s.cfg.hpcProto → exec i s = .next { s with err := .noEncoding }) ∧
    (CommandReady s cmd → ¬DeviceTakes s → ∃ t, exec i s = .next t ∧
      CutShort { s with err := .writeError } t s.cfg.hpcProto (s.cfg.cmdScancode cmd))

/-- RAMP_PRESS: a press the device took steps the level cyclically; one that failed, by a short write or by any of the
four refusals of its send, sets RAMP_FAULT, puts the code in RAMP_ERR and does not step the level; all count down and
set the next due time, and ERR is not written (R251, R252, R288). -/
def Obligations.RampPressOutcomes : Prop :=
  ∀ s : State, 0 < s.rampRemaining.val →
    (CommandReady s .inverterPower → DeviceTakes s →
      Sent { pressCounted s with level := ⟨(s.level.val + 1) % nLevels, Nat.mod_lt _ (by decide)⟩ } (rampPress s)
        s.cfg.hpcProto s.cfg.scInverterPower) ∧
    (CommandReady s .inverterPower → ¬DeviceTakes s →
      CutShort { pressCounted s with rampFault := true, rampErr := .writeError } (rampPress s) s.cfg.hpcProto
        s.cfg.scInverterPower) ∧
    (∀ e : Err, SendRefused s .inverterPower e →
      rampPress s = { pressCounted s with rampFault := true, rampErr := e })

/-! ### The whole machine -/

/-- The reset values of the table of R48 that the spec gives; tx_proto and tx_carrier hold no value there. -/
def Obligations.ResetValues : Prop :=
  ∀ s : State, s = State.reset →
    s.isOn = false ∧ s.level = 0 ∧ s.canTurnOn = false ∧ s.shallTurnOff = false ∧ s.lastPowerChange = 0 ∧
    s.canTurnOnSince = 0 ∧ s.shallTurnOffSince = 0 ∧ s.rampRemaining = 0 ∧ s.rampNext = 0 ∧ s.rampFault = false ∧
    s.rampErr.code = 0 ∧ s.err.code = 0 ∧ s.v = false ∧ s.elen = 0 ∧ s.eb = [] ∧ s.txOpen = false ∧ s.time = 0 ∧
    s.txlog = [] ∧ s.cfg.table = ProtoTable.default ∧ powerState s = .off

/-- The reset state meets the invariant, and its configuration meets R326, with the sizes of 00_scope.md section 4.1:
nine protocols, four commands, five levels, 512 elements, 64 bits of TIME, 72 of a request and 32 of the rest. -/
def Obligations.ResetMeetsInvariant : Prop :=
  State.reset.Inv ∧ State.reset.cfg.Ok ∧
    ∀ z, z = State.reset.cfg.sizes →
      z.nProto = 9 ∧ z.ebCap = 512 ∧ z.edgeW = 32 ∧ z.scW = 32 ∧ z.dwW = 32 ∧ z.nLevels = 5 ∧ z.nCmd = 4 ∧
      z.timeW = 64 ∧ z.reqW = 72

/-- Every step keeps the invariant: ELEN counts EB, no timestamp is ahead of TIME, each latch is set only in its state,
the carrier is the bound protocol's, and a ramp's presses are due between now and 3 * T_PRESS after it was accepted. -/
def Obligations.StepKeepsInvariant : Prop :=
  ∀ s t : State, s.Inv → step s = .next t → t.Inv

/-- The join of UPDATE never holds: under the invariant and R326, JoinNeeded is false for every sample (R229, R257). -/
def Obligations.JoinNeverNeeded : Prop :=
  ∀ (s : State) (a : Int), s.Inv → s.cfg.Ok → joinNeeded a s = false

/-- TXLOG is append-only: what a step appends is stamped with its TIME, every frame or short write in it is the encoding
of a valid scancode under the protocol the handle is bound to, a frame is recorded only where the device reported 4 *
len bytes, and a short write only with another count, which it records: a short write is never recorded as a frame (R45,
R191, R195, R198, R199, R204). The count reported is the model's draw once the turn is taken (log 2, log 3). -/
def Obligations.StepAppendsGenuineEvents : Prop :=
  ∀ s t : State, step s = .next t →
    ∃ new, t.txlog = s.txlog ++ new ∧ ∀ e ∈ new, e.time = s.time ∧ e.Genuine s.cfg ∧
      (∀ p l, e = .frame s.time p l → s.txOpen = true ∧ p = s.txProto ∧
        (s.takeTurn (nextTurn s)).nextWrite = 4 * l.length) ∧
      (∀ p l w, e = .short s.time p l w → s.txOpen = true ∧ p = s.txProto ∧
        w = (s.takeTurn (nextTurn s)).nextWrite ∧ w ≠ 4 * l.length)

/-- No step writes PT or any parameter (R31, R43, R82, R122). -/
def Obligations.StepKeepsConfiguration : Prop :=
  ∀ s t : State, step s = .next t → t.cfg = s.cfg

/-- TIME never decreases and moves only by TICK, by one; host operations and presses take no TIME, and TIME does not
pass a due press (R40, R255, R256, R340). -/
def Obligations.TimeMovesOnlyByTick : Prop :=
  ∀ s t : State, step s = .next t →
    t.time = s.time ∨
      (t.time = s.time + 1 ∧ ¬(0 < s.rampRemaining.val ∧ s.time = s.rampNext) ∧ s.time < 2 ^ s.cfg.sizes.timeW - 1 ∧
        t = { s with time := s.time + 1, schedule := t.schedule, draws := t.draws })

/-- The level changes only by a due press, one up the cycle, or by a turn-on, to 0 (R35, R230, R238, R251): no operation
sets another level, and level 4 is reached only from 3 by a press. -/
def Obligations.LevelChanges : Prop :=
  ∀ s t : State, step s = .next t → t.level ≠ s.level →
    (nextTurn s = .internal ∧ pressDue s = true ∧ t.level.val = (s.level.val + 1) % nLevels) ∨
      (s.isOn = false ∧ t.isOn = true ∧ t.level = 0)

/-- RAMP_FAULT is sticky, and ERR is written by host operations alone (R27, R28, R288, R291). -/
def Obligations.FaultStickyErrHostOnly : Prop :=
  ∀ s t : State, step s = .next t →
    (s.rampFault = true → t.rampFault = true) ∧ (nextTurn s = .internal → t.err = s.err ∧ t.v = s.v) ∧
      (nextTurn s = .host → t.rampFault = s.rampFault ∧ t.rampErr = s.rampErr)

/-- The power timers never fire early: an UPDATE turns the controller on only if the latch was set at least T_ON ago and
the sample is above Low, and off only if the other was set at least T_OFF ago and the sample is not (R223, R225). -/
def Obligations.TimersNeverFireEarly : Prop :=
  ∀ (s t : State) (c p : Power), 0 < s.cfg.tOn → 0 < s.cfg.tOff → exec (.update c p) s = .next t →
    (s.isOn = false → t.isOn = true →
      s.canTurnOn = true ∧ s.canTurnOnSince + s.cfg.tOn ≤ s.time ∧ s.cfg.lowThreshold < availableDw c p) ∧
    (s.isOn = true → t.isOn = false →
      s.shallTurnOff = true ∧ s.shallTurnOffSince + s.cfg.tOff ≤ s.time ∧ availableDw c p ≤ s.cfg.lowThreshold)

/-- EB always holds one whole frame: a step leaves it as it was, or fills it with the encoding of a valid scancode,
which the host then reads element by element (R30, R61, R330). -/
def Obligations.BufferHoldsWholeFrame : Prop :=
  ∀ s t : State, step s = .next t →
    (t.eb = s.eb ∧ t.elen = s.elen) ∨
      ∃ p sc, isValid s.cfg p sc = true ∧ t.elen.toNat = (encodeFrame s.cfg p sc).length ∧
        ∀ i (h : i < (encodeFrame s.cfg p sc).length), readEdge t i = (encodeFrame s.cfg p sc)[i]

/-- A due press is taken before TIME moves, after at most as many steps as the host has requests, plus one: no sequence
of host requests starves it (R256). The request queue is finite (log 2). -/
def Obligations.DuePressIsTaken : Prop :=
  ∀ s : State, pressDue s = true →
    ∃ k t, k ≤ s.requests.length + 1 ∧ Host.Core.run Sys2Proof.core k s = .next t ∧ t.time = s.time ∧
      t.rampRemaining.val + 1 = s.rampRemaining.val ∧ t.rampNext = s.rampNext + s.cfg.tPress

/-- A ramp runs to completion: with no host request, the handle ready and the device taking every press, the presses go
out at ramp_next and then exactly T_PRESS apart, each as one whole frame, and the level has gone up by their number
(R76, R250, R251). -/
def Obligations.RampRunsToCompletion : Prop :=
  ∀ (s : State) (n : Nat) (more : List Nat), s.requests = [] → s.rampRemaining.val = n → 0 < n →
    s.time ≤ s.rampNext → s.rampNext + (n - 1) * s.cfg.tPress ≤ 2 ^ s.cfg.sizes.timeW - 1 →
    CommandReady s .inverterPower →
    s.writeAnswers = List.replicate n (4 * frameLength s.cfg.layout s.cfg.hpcProto) ++ more →
    ∃ k t, Host.Core.run Sys2Proof.core k s = .next t ∧ t.rampRemaining = 0 ∧
      t.time = s.rampNext + (n - 1) * s.cfg.tPress ∧ t.level.val = (s.level.val + n) % nLevels ∧
      t.rampFault = s.rampFault ∧
      t.txlog = s.txlog ++ (List.range n).map fun j =>
        .frame (s.rampNext + j * s.cfg.tPress) s.cfg.hpcProto
          (encodeFrame s.cfg s.cfg.hpcProto s.cfg.scInverterPower)

/-- The number of every result code of the table of R281, which ERR and RAMP_ERR hold. -/
def Obligations.ErrorCodes : Prop :=
  Err.code .ok = 0 ∧ Err.code .invalidScancode = 1 ∧ Err.code .noEncoding = 2 ∧ Err.code .writeError = 3 ∧
  Err.code .openCannotOpen = 4 ∧ Err.code .openCannotQueryFeatures = 5 ∧ Err.code .openNoRawSend = 6 ∧
  Err.code .openNoSetCarrier = 7 ∧ Err.code .openCarrierRejected = 8 ∧ Err.code .openSendModeFailed = 9 ∧
  Err.code .illegalRequest = 10 ∧ Err.code .notOpen = 11 ∧ Err.code .protocolMismatch = 12 ∧ Err.code .alreadyOpen = 13
end

