-- ==== Sys2Proof/Laws/Encoder.lean ====
section
/-!
SUPPORT. What the pure encoder's lists look like: their lengths, and the element at each position.
-/

namespace Sys2Proof.Machine

theorem sint_eq_toInt (w : Power) : sint w = w.toInt := by
  unfold sint
  rw [BitVec.toInt_eq_toNat_cond]
  simp only [dwW]
  split <;> split <;> first | rfl | omega

theorem flatMap_pair_length {α β : Type} (l : List α) (f g : α → β) :
    (l.flatMap fun i => [f i, g i]).length = 2 * l.length := by
  induction l with
  | nil => rfl
  | cons a l ih => simp only [List.flatMap_cons, List.length_append, ih, List.length_cons, List.length_nil]; omega

/-- The elements of a list made of pairs, by position. -/
theorem flatMap_pair_getElem {α β : Type} (f g : α → β) (l : List α) (i : Nat) (h : i < l.length) :
    (l.flatMap fun a => [f a, g a])[2 * i]? = some (f l[i]) ∧
      (l.flatMap fun a => [f a, g a])[2 * i + 1]? = some (g l[i]) := by
  induction l generalizing i with
  | nil => simp at h
  | cons a l ih =>
    cases i with
    | zero => simp
    | succ i => simpa [Nat.mul_add] using ih i (by simpa using h)

/-- Bit `i` of a space-coded field: its pulse and the space that carries it (R155). -/
theorem sbits_getElem (u : Word) {n : Nat} (v : BitVec n) (p s0 s1 : Nat) (i : Nat) (h : i < n) :
    (sbits u v p s0 s1)[2 * i]? = some (us p u) ∧
      (sbits u v p s0 s1)[2 * i + 1]? = some (if v.getLsbD i then us s1 u else us s0 u) := by
  have := flatMap_pair_getElem (fun _ => us p u) (fun i => if v.getLsbD i then us s1 u else us s0 u)
    (List.range n) i (by simpa using h)
  rwa [List.getElem_range] at this

/-- Bit `i` of a pulse-coded field: the pulse that carries it and its space (R163). -/
theorem pbits_getElem (u : Word) (p1 p0 : Nat) {n : Nat} (v : BitVec n) (i : Nat) (h : i < n) :
    (pbits u p1 p0 v)[2 * i]? = some (if v.getLsbD i then us p1 u else us p0 u) ∧
      (pbits u p1 p0 v)[2 * i + 1]? = some (us 1 u) := by
  have := flatMap_pair_getElem (fun i => if v.getLsbD i then us p1 u else us p0 u) (fun _ => us 1 u)
    (List.range n) i (by simpa using h)
  rwa [List.getElem_range] at this

@[simp] theorem sbits_length (u : Word) {n : Nat} (v : BitVec n) (p s0 s1 : Nat) :
    (sbits u v p s0 s1).length = 2 * n := by
  unfold sbits; rw [flatMap_pair_length, List.length_range]

@[simp] theorem pbits_length (u : Word) (p1 p0 : Nat) {n : Nat} (v : BitVec n) :
    (pbits u p1 p0 v).length = 2 * n := by
  unfold pbits; rw [flatMap_pair_length, List.length_range]

@[simp] theorem necByte_length (u : Word) (b : BitVec 8) : (necByte u b).length = 16 := by
  unfold necByte; rw [sbits_length]

@[simp] theorem necFamilyFrame_length (u : Word) (sel : NecBytes) (sc : Scancode) :
    (necFamilyFrame u sel sc).length = 67 := by simp [necFamilyFrame]

@[simp] theorem sonyFieldBits_length (l : Layout) (u : Word) (fields : List Field) (sc : Scancode) :
    (sonyFieldBits l u fields sc).length = 2 * (fields.map Field.width).sum := by
  induction fields with
  | nil => rfl
  | cons f fields ih =>
    simp only [sonyFieldBits, List.flatMap_cons, List.length_append, pbits_length, List.map_cons, List.sum_cons] at *
    omega

@[simp] theorem sonyFamilyFrame_length (l : Layout) (u : Word) (fields : List Field) (sc : Scancode) :
    (sonyFamilyFrame l u fields sc).length = 2 * (fields.map Field.width).sum + 1 := by simp [sonyFamilyFrame]

@[simp] theorem frameBytes_length (l : List Edge) : (frameBytes l).length = 4 * l.length := by
  induction l with
  | nil => rfl
  | cons a l ih => simp only [frameBytes, List.flatMap_cons, List.length_append, List.length_cons] at *
                   rw [ih]; simp [edgeBytes]; omega

@[simp] theorem sanyoFieldsFrame_length (u : Word) (fa fd : Field) (sc : Scancode) :
    (sanyoFieldsFrame u fa fd sc).length = 4 * (fa.width + fd.width) + 3 := by
  simp [sanyoFieldsFrame]; omega

@[simp] theorem sharpFieldsFrame_length (u : Word) (fa fd : Field) (t : BitVec 2) (sc : Scancode) :
    (sharpFieldsFrame u fa fd t sc).length = 4 * (fa.width + fd.width + 2) + 3 := by
  simp [sharpFieldsFrame]; omega

/-- The length of a frame is `len(p)` of the layout, whatever the scancode (R167). -/
theorem encodeFrame_length (c : Config) (p : Proto) (sc : Scancode) :
    (encodeFrame c p sc).length = frameLength c.layout p := by
  cases p <;> simp [encodeFrame, frameLength, jvcFrame, sony12Frame, sony15Frame, sony20Frame, necFrame, necxFrame,
    nec32Frame, sanyoFrame, sharpFrame]

/-- The bound check refuses exactly the frames above max_edges or above the capacity of EB. -/
theorem tooLong_eq_false {c : Config} {p : Proto} {edges : List Edge} :
    tooLong c p edges = false ↔ edges.length ≤ (c.row p).maxEdges.toNat ∧ edges.length ≤ c.ebCap := by
  simp [tooLong]

theorem tooLong_eq_true {c : Config} {p : Proto} {edges : List Edge} :
    tooLong c p edges = true ↔ (c.row p).maxEdges.toNat < edges.length ∨ c.ebCap < edges.length := by
  simp [tooLong]

/-- A frame within the bound check is one ELEN can count. -/
theorem length_lt_of_not_tooLong {c : Config} {p : Proto} {edges : List Edge} (h : tooLong c p edges = false) :
    edges.length < 2 ^ 10 := Nat.lt_of_le_of_lt (tooLong_eq_false.mp h).1 (c.row p).maxEdges.isLt

end Sys2Proof.Machine
end

