-- ==== Sys2Proof/Laws/State.lean ====
section
/-!
SUPPORT. One lemma per field of State per named update (Machine/Ops.lean, Controller.lean, Agents.lean), so that no proof
unfolds a record update. Each lemma is named <update>_<field>.
-/

namespace Sys2Proof.Machine

/-! ### fail -/
@[simp] theorem fail_cfg (s : State) (e : Err) : (s.fail e).cfg = s.cfg := rfl
@[simp] theorem fail_isOn (s : State) (e : Err) : (s.fail e).isOn = s.isOn := rfl
@[simp] theorem fail_canTurnOn (s : State) (e : Err) : (s.fail e).canTurnOn = s.canTurnOn := rfl
@[simp] theorem fail_shallTurnOff (s : State) (e : Err) : (s.fail e).shallTurnOff = s.shallTurnOff := rfl
@[simp] theorem fail_v (s : State) (e : Err) : (s.fail e).v = s.v := rfl
@[simp] theorem fail_rampFault (s : State) (e : Err) : (s.fail e).rampFault = s.rampFault := rfl
@[simp] theorem fail_rampErr (s : State) (e : Err) : (s.fail e).rampErr = s.rampErr := rfl
@[simp] theorem fail_err (s : State) (e : Err) : (s.fail e).err = e := rfl
@[simp] theorem fail_elen (s : State) (e : Err) : (s.fail e).elen = s.elen := rfl
@[simp] theorem fail_eb (s : State) (e : Err) : (s.fail e).eb = s.eb := rfl
@[simp] theorem fail_txOpen (s : State) (e : Err) : (s.fail e).txOpen = s.txOpen := rfl
@[simp] theorem fail_txProto (s : State) (e : Err) : (s.fail e).txProto = s.txProto := rfl
@[simp] theorem fail_txCarrier (s : State) (e : Err) : (s.fail e).txCarrier = s.txCarrier := rfl
@[simp] theorem fail_level (s : State) (e : Err) : (s.fail e).level = s.level := rfl
@[simp] theorem fail_lastPowerChange (s : State) (e : Err) : (s.fail e).lastPowerChange = s.lastPowerChange := rfl
@[simp] theorem fail_canTurnOnSince (s : State) (e : Err) : (s.fail e).canTurnOnSince = s.canTurnOnSince := rfl
@[simp] theorem fail_shallTurnOffSince (s : State) (e : Err) : (s.fail e).shallTurnOffSince = s.shallTurnOffSince := rfl
@[simp] theorem fail_rampRemaining (s : State) (e : Err) : (s.fail e).rampRemaining = s.rampRemaining := rfl
@[simp] theorem fail_rampNext (s : State) (e : Err) : (s.fail e).rampNext = s.rampNext := rfl
@[simp] theorem fail_time (s : State) (e : Err) : (s.fail e).time = s.time := rfl
@[simp] theorem fail_txlog (s : State) (e : Err) : (s.fail e).txlog = s.txlog := rfl
@[simp] theorem fail_requests (s : State) (e : Err) : (s.fail e).requests = s.requests := rfl
@[simp] theorem fail_schedule (s : State) (e : Err) : (s.fail e).schedule = s.schedule := rfl
@[simp] theorem fail_openAnswers (s : State) (e : Err) : (s.fail e).openAnswers = s.openAnswers := rfl
@[simp] theorem fail_writeAnswers (s : State) (e : Err) : (s.fail e).writeAnswers = s.writeAnswers := rfl
@[simp] theorem fail_draws (s : State) (e : Err) : (s.fail e).draws = s.draws := rfl

/-! ### done -/
@[simp] theorem done_cfg (s : State) : (s.done).cfg = s.cfg := rfl
@[simp] theorem done_isOn (s : State) : (s.done).isOn = s.isOn := rfl
@[simp] theorem done_canTurnOn (s : State) : (s.done).canTurnOn = s.canTurnOn := rfl
@[simp] theorem done_shallTurnOff (s : State) : (s.done).shallTurnOff = s.shallTurnOff := rfl
@[simp] theorem done_v (s : State) : (s.done).v = s.v := rfl
@[simp] theorem done_rampFault (s : State) : (s.done).rampFault = s.rampFault := rfl
@[simp] theorem done_rampErr (s : State) : (s.done).rampErr = s.rampErr := rfl
@[simp] theorem done_err (s : State) : (s.done).err = .ok := rfl
@[simp] theorem done_elen (s : State) : (s.done).elen = s.elen := rfl
@[simp] theorem done_eb (s : State) : (s.done).eb = s.eb := rfl
@[simp] theorem done_txOpen (s : State) : (s.done).txOpen = s.txOpen := rfl
@[simp] theorem done_txProto (s : State) : (s.done).txProto = s.txProto := rfl
@[simp] theorem done_txCarrier (s : State) : (s.done).txCarrier = s.txCarrier := rfl
@[simp] theorem done_level (s : State) : (s.done).level = s.level := rfl
@[simp] theorem done_lastPowerChange (s : State) : (s.done).lastPowerChange = s.lastPowerChange := rfl
@[simp] theorem done_canTurnOnSince (s : State) : (s.done).canTurnOnSince = s.canTurnOnSince := rfl
@[simp] theorem done_shallTurnOffSince (s : State) : (s.done).shallTurnOffSince = s.shallTurnOffSince := rfl
@[simp] theorem done_rampRemaining (s : State) : (s.done).rampRemaining = s.rampRemaining := rfl
@[simp] theorem done_rampNext (s : State) : (s.done).rampNext = s.rampNext := rfl
@[simp] theorem done_time (s : State) : (s.done).time = s.time := rfl
@[simp] theorem done_txlog (s : State) : (s.done).txlog = s.txlog := rfl
@[simp] theorem done_requests (s : State) : (s.done).requests = s.requests := rfl
@[simp] theorem done_schedule (s : State) : (s.done).schedule = s.schedule := rfl
@[simp] theorem done_openAnswers (s : State) : (s.done).openAnswers = s.openAnswers := rfl
@[simp] theorem done_writeAnswers (s : State) : (s.done).writeAnswers = s.writeAnswers := rfl
@[simp] theorem done_draws (s : State) : (s.done).draws = s.draws := rfl

/-! ### rampFail -/
@[simp] theorem rampFail_cfg (s : State) (e : Err) : (s.rampFail e).cfg = s.cfg := rfl
@[simp] theorem rampFail_isOn (s : State) (e : Err) : (s.rampFail e).isOn = s.isOn := rfl
@[simp] theorem rampFail_canTurnOn (s : State) (e : Err) : (s.rampFail e).canTurnOn = s.canTurnOn := rfl
@[simp] theorem rampFail_shallTurnOff (s : State) (e : Err) : (s.rampFail e).shallTurnOff = s.shallTurnOff := rfl
@[simp] theorem rampFail_v (s : State) (e : Err) : (s.rampFail e).v = s.v := rfl
@[simp] theorem rampFail_rampFault (s : State) (e : Err) : (s.rampFail e).rampFault = true := rfl
@[simp] theorem rampFail_rampErr (s : State) (e : Err) : (s.rampFail e).rampErr = e := rfl
@[simp] theorem rampFail_err (s : State) (e : Err) : (s.rampFail e).err = s.err := rfl
@[simp] theorem rampFail_elen (s : State) (e : Err) : (s.rampFail e).elen = s.elen := rfl
@[simp] theorem rampFail_eb (s : State) (e : Err) : (s.rampFail e).eb = s.eb := rfl
@[simp] theorem rampFail_txOpen (s : State) (e : Err) : (s.rampFail e).txOpen = s.txOpen := rfl
@[simp] theorem rampFail_txProto (s : State) (e : Err) : (s.rampFail e).txProto = s.txProto := rfl
@[simp] theorem rampFail_txCarrier (s : State) (e : Err) : (s.rampFail e).txCarrier = s.txCarrier := rfl
@[simp] theorem rampFail_level (s : State) (e : Err) : (s.rampFail e).level = s.level := rfl
@[simp] theorem rampFail_lastPowerChange (s : State) (e : Err) : (s.rampFail e).lastPowerChange = s.lastPowerChange := rfl
@[simp] theorem rampFail_canTurnOnSince (s : State) (e : Err) : (s.rampFail e).canTurnOnSince = s.canTurnOnSince := rfl
@[simp] theorem rampFail_shallTurnOffSince (s : State) (e : Err) : (s.rampFail e).shallTurnOffSince = s.shallTurnOffSince := rfl
@[simp] theorem rampFail_rampRemaining (s : State) (e : Err) : (s.rampFail e).rampRemaining = s.rampRemaining := rfl
@[simp] theorem rampFail_rampNext (s : State) (e : Err) : (s.rampFail e).rampNext = s.rampNext := rfl
@[simp] theorem rampFail_time (s : State) (e : Err) : (s.rampFail e).time = s.time := rfl
@[simp] theorem rampFail_txlog (s : State) (e : Err) : (s.rampFail e).txlog = s.txlog := rfl
@[simp] theorem rampFail_requests (s : State) (e : Err) : (s.rampFail e).requests = s.requests := rfl
@[simp] theorem rampFail_schedule (s : State) (e : Err) : (s.rampFail e).schedule = s.schedule := rfl
@[simp] theorem rampFail_openAnswers (s : State) (e : Err) : (s.rampFail e).openAnswers = s.openAnswers := rfl
@[simp] theorem rampFail_writeAnswers (s : State) (e : Err) : (s.rampFail e).writeAnswers = s.writeAnswers := rfl
@[simp] theorem rampFail_draws (s : State) (e : Err) : (s.rampFail e).draws = s.draws := rfl

/-! ### setV -/
@[simp] theorem setV_cfg (s : State) (b : Bool) : (s.setV b).cfg = s.cfg := rfl
@[simp] theorem setV_isOn (s : State) (b : Bool) : (s.setV b).isOn = s.isOn := rfl
@[simp] theorem setV_canTurnOn (s : State) (b : Bool) : (s.setV b).canTurnOn = s.canTurnOn := rfl
@[simp] theorem setV_shallTurnOff (s : State) (b : Bool) : (s.setV b).shallTurnOff = s.shallTurnOff := rfl
@[simp] theorem setV_v (s : State) (b : Bool) : (s.setV b).v = b := rfl
@[simp] theorem setV_rampFault (s : State) (b : Bool) : (s.setV b).rampFault = s.rampFault := rfl
@[simp] theorem setV_rampErr (s : State) (b : Bool) : (s.setV b).rampErr = s.rampErr := rfl
@[simp] theorem setV_err (s : State) (b : Bool) : (s.setV b).err = s.err := rfl
@[simp] theorem setV_elen (s : State) (b : Bool) : (s.setV b).elen = s.elen := rfl
@[simp] theorem setV_eb (s : State) (b : Bool) : (s.setV b).eb = s.eb := rfl
@[simp] theorem setV_txOpen (s : State) (b : Bool) : (s.setV b).txOpen = s.txOpen := rfl
@[simp] theorem setV_txProto (s : State) (b : Bool) : (s.setV b).txProto = s.txProto := rfl
@[simp] theorem setV_txCarrier (s : State) (b : Bool) : (s.setV b).txCarrier = s.txCarrier := rfl
@[simp] theorem setV_level (s : State) (b : Bool) : (s.setV b).level = s.level := rfl
@[simp] theorem setV_lastPowerChange (s : State) (b : Bool) : (s.setV b).lastPowerChange = s.lastPowerChange := rfl
@[simp] theorem setV_canTurnOnSince (s : State) (b : Bool) : (s.setV b).canTurnOnSince = s.canTurnOnSince := rfl
@[simp] theorem setV_shallTurnOffSince (s : State) (b : Bool) : (s.setV b).shallTurnOffSince = s.shallTurnOffSince := rfl
@[simp] theorem setV_rampRemaining (s : State) (b : Bool) : (s.setV b).rampRemaining = s.rampRemaining := rfl
@[simp] theorem setV_rampNext (s : State) (b : Bool) : (s.setV b).rampNext = s.rampNext := rfl
@[simp] theorem setV_time (s : State) (b : Bool) : (s.setV b).time = s.time := rfl
@[simp] theorem setV_txlog (s : State) (b : Bool) : (s.setV b).txlog = s.txlog := rfl
@[simp] theorem setV_requests (s : State) (b : Bool) : (s.setV b).requests = s.requests := rfl
@[simp] theorem setV_schedule (s : State) (b : Bool) : (s.setV b).schedule = s.schedule := rfl
@[simp] theorem setV_openAnswers (s : State) (b : Bool) : (s.setV b).openAnswers = s.openAnswers := rfl
@[simp] theorem setV_writeAnswers (s : State) (b : Bool) : (s.setV b).writeAnswers = s.writeAnswers := rfl
@[simp] theorem setV_draws (s : State) (b : Bool) : (s.setV b).draws = s.draws := rfl

/-! ### openDrawn -/
@[simp] theorem openDrawn_cfg (s : State) : (s.openDrawn).cfg = s.cfg := rfl
@[simp] theorem openDrawn_isOn (s : State) : (s.openDrawn).isOn = s.isOn := rfl
@[simp] theorem openDrawn_canTurnOn (s : State) : (s.openDrawn).canTurnOn = s.canTurnOn := rfl
@[simp] theorem openDrawn_shallTurnOff (s : State) : (s.openDrawn).shallTurnOff = s.shallTurnOff := rfl
@[simp] theorem openDrawn_v (s : State) : (s.openDrawn).v = s.v := rfl
@[simp] theorem openDrawn_rampFault (s : State) : (s.openDrawn).rampFault = s.rampFault := rfl
@[simp] theorem openDrawn_rampErr (s : State) : (s.openDrawn).rampErr = s.rampErr := rfl
@[simp] theorem openDrawn_err (s : State) : (s.openDrawn).err = s.err := rfl
@[simp] theorem openDrawn_elen (s : State) : (s.openDrawn).elen = s.elen := rfl
@[simp] theorem openDrawn_eb (s : State) : (s.openDrawn).eb = s.eb := rfl
@[simp] theorem openDrawn_txOpen (s : State) : (s.openDrawn).txOpen = s.txOpen := rfl
@[simp] theorem openDrawn_txProto (s : State) : (s.openDrawn).txProto = s.txProto := rfl
@[simp] theorem openDrawn_txCarrier (s : State) : (s.openDrawn).txCarrier = s.txCarrier := rfl
@[simp] theorem openDrawn_level (s : State) : (s.openDrawn).level = s.level := rfl
@[simp] theorem openDrawn_lastPowerChange (s : State) : (s.openDrawn).lastPowerChange = s.lastPowerChange := rfl
@[simp] theorem openDrawn_canTurnOnSince (s : State) : (s.openDrawn).canTurnOnSince = s.canTurnOnSince := rfl
@[simp] theorem openDrawn_shallTurnOffSince (s : State) : (s.openDrawn).shallTurnOffSince = s.shallTurnOffSince := rfl
@[simp] theorem openDrawn_rampRemaining (s : State) : (s.openDrawn).rampRemaining = s.rampRemaining := rfl
@[simp] theorem openDrawn_rampNext (s : State) : (s.openDrawn).rampNext = s.rampNext := rfl
@[simp] theorem openDrawn_time (s : State) : (s.openDrawn).time = s.time := rfl
@[simp] theorem openDrawn_txlog (s : State) : (s.openDrawn).txlog = s.txlog := rfl
@[simp] theorem openDrawn_requests (s : State) : (s.openDrawn).requests = s.requests := rfl
@[simp] theorem openDrawn_schedule (s : State) : (s.openDrawn).schedule = s.schedule := rfl
@[simp] theorem openDrawn_openAnswers (s : State) : (s.openDrawn).openAnswers = s.openAnswers.tail := rfl
@[simp] theorem openDrawn_writeAnswers (s : State) : (s.openDrawn).writeAnswers = s.writeAnswers := rfl
@[simp] theorem openDrawn_draws (s : State) : (s.openDrawn).draws = s.draws + 1 := rfl

/-! ### writeDrawn -/
@[simp] theorem writeDrawn_cfg (s : State) : (s.writeDrawn).cfg = s.cfg := rfl
@[simp] theorem writeDrawn_isOn (s : State) : (s.writeDrawn).isOn = s.isOn := rfl
@[simp] theorem writeDrawn_canTurnOn (s : State) : (s.writeDrawn).canTurnOn = s.canTurnOn := rfl
@[simp] theorem writeDrawn_shallTurnOff (s : State) : (s.writeDrawn).shallTurnOff = s.shallTurnOff := rfl
@[simp] theorem writeDrawn_v (s : State) : (s.writeDrawn).v = s.v := rfl
@[simp] theorem writeDrawn_rampFault (s : State) : (s.writeDrawn).rampFault = s.rampFault := rfl
@[simp] theorem writeDrawn_rampErr (s : State) : (s.writeDrawn).rampErr = s.rampErr := rfl
@[simp] theorem writeDrawn_err (s : State) : (s.writeDrawn).err = s.err := rfl
@[simp] theorem writeDrawn_elen (s : State) : (s.writeDrawn).elen = s.elen := rfl
@[simp] theorem writeDrawn_eb (s : State) : (s.writeDrawn).eb = s.eb := rfl
@[simp] theorem writeDrawn_txOpen (s : State) : (s.writeDrawn).txOpen = s.txOpen := rfl
@[simp] theorem writeDrawn_txProto (s : State) : (s.writeDrawn).txProto = s.txProto := rfl
@[simp] theorem writeDrawn_txCarrier (s : State) : (s.writeDrawn).txCarrier = s.txCarrier := rfl
@[simp] theorem writeDrawn_level (s : State) : (s.writeDrawn).level = s.level := rfl
@[simp] theorem writeDrawn_lastPowerChange (s : State) : (s.writeDrawn).lastPowerChange = s.lastPowerChange := rfl
@[simp] theorem writeDrawn_canTurnOnSince (s : State) : (s.writeDrawn).canTurnOnSince = s.canTurnOnSince := rfl
@[simp] theorem writeDrawn_shallTurnOffSince (s : State) : (s.writeDrawn).shallTurnOffSince = s.shallTurnOffSince := rfl
@[simp] theorem writeDrawn_rampRemaining (s : State) : (s.writeDrawn).rampRemaining = s.rampRemaining := rfl
@[simp] theorem writeDrawn_rampNext (s : State) : (s.writeDrawn).rampNext = s.rampNext := rfl
@[simp] theorem writeDrawn_time (s : State) : (s.writeDrawn).time = s.time := rfl
@[simp] theorem writeDrawn_txlog (s : State) : (s.writeDrawn).txlog = s.txlog := rfl
@[simp] theorem writeDrawn_requests (s : State) : (s.writeDrawn).requests = s.requests := rfl
@[simp] theorem writeDrawn_schedule (s : State) : (s.writeDrawn).schedule = s.schedule := rfl
@[simp] theorem writeDrawn_openAnswers (s : State) : (s.writeDrawn).openAnswers = s.openAnswers := rfl
@[simp] theorem writeDrawn_writeAnswers (s : State) : (s.writeDrawn).writeAnswers = s.writeAnswers.tail := rfl
@[simp] theorem writeDrawn_draws (s : State) : (s.writeDrawn).draws = s.draws + 1 := rfl

/-! ### log -/
@[simp] theorem log_cfg (s : State) (e : Event) : (s.log e).cfg = s.cfg := rfl
@[simp] theorem log_isOn (s : State) (e : Event) : (s.log e).isOn = s.isOn := rfl
@[simp] theorem log_canTurnOn (s : State) (e : Event) : (s.log e).canTurnOn = s.canTurnOn := rfl
@[simp] theorem log_shallTurnOff (s : State) (e : Event) : (s.log e).shallTurnOff = s.shallTurnOff := rfl
@[simp] theorem log_v (s : State) (e : Event) : (s.log e).v = s.v := rfl
@[simp] theorem log_rampFault (s : State) (e : Event) : (s.log e).rampFault = s.rampFault := rfl
@[simp] theorem log_rampErr (s : State) (e : Event) : (s.log e).rampErr = s.rampErr := rfl
@[simp] theorem log_err (s : State) (e : Event) : (s.log e).err = s.err := rfl
@[simp] theorem log_elen (s : State) (e : Event) : (s.log e).elen = s.elen := rfl
@[simp] theorem log_eb (s : State) (e : Event) : (s.log e).eb = s.eb := rfl
@[simp] theorem log_txOpen (s : State) (e : Event) : (s.log e).txOpen = s.txOpen := rfl
@[simp] theorem log_txProto (s : State) (e : Event) : (s.log e).txProto = s.txProto := rfl
@[simp] theorem log_txCarrier (s : State) (e : Event) : (s.log e).txCarrier = s.txCarrier := rfl
@[simp] theorem log_level (s : State) (e : Event) : (s.log e).level = s.level := rfl
@[simp] theorem log_lastPowerChange (s : State) (e : Event) : (s.log e).lastPowerChange = s.lastPowerChange := rfl
@[simp] theorem log_canTurnOnSince (s : State) (e : Event) : (s.log e).canTurnOnSince = s.canTurnOnSince := rfl
@[simp] theorem log_shallTurnOffSince (s : State) (e : Event) : (s.log e).shallTurnOffSince = s.shallTurnOffSince := rfl
@[simp] theorem log_rampRemaining (s : State) (e : Event) : (s.log e).rampRemaining = s.rampRemaining := rfl
@[simp] theorem log_rampNext (s : State) (e : Event) : (s.log e).rampNext = s.rampNext := rfl
@[simp] theorem log_time (s : State) (e : Event) : (s.log e).time = s.time := rfl
@[simp] theorem log_txlog (s : State) (e : Event) : (s.log e).txlog = s.txlog ++ [e] := rfl
@[simp] theorem log_requests (s : State) (e : Event) : (s.log e).requests = s.requests := rfl
@[simp] theorem log_schedule (s : State) (e : Event) : (s.log e).schedule = s.schedule := rfl
@[simp] theorem log_openAnswers (s : State) (e : Event) : (s.log e).openAnswers = s.openAnswers := rfl
@[simp] theorem log_writeAnswers (s : State) (e : Event) : (s.log e).writeAnswers = s.writeAnswers := rfl
@[simp] theorem log_draws (s : State) (e : Event) : (s.log e).draws = s.draws := rfl

/-! ### storeFrame -/
@[simp] theorem storeFrame_cfg (s : State) (l : List Edge) : (s.storeFrame l).cfg = s.cfg := rfl
@[simp] theorem storeFrame_isOn (s : State) (l : List Edge) : (s.storeFrame l).isOn = s.isOn := rfl
@[simp] theorem storeFrame_canTurnOn (s : State) (l : List Edge) : (s.storeFrame l).canTurnOn = s.canTurnOn := rfl
@[simp] theorem storeFrame_shallTurnOff (s : State) (l : List Edge) : (s.storeFrame l).shallTurnOff = s.shallTurnOff := rfl
@[simp] theorem storeFrame_v (s : State) (l : List Edge) : (s.storeFrame l).v = s.v := rfl
@[simp] theorem storeFrame_rampFault (s : State) (l : List Edge) : (s.storeFrame l).rampFault = s.rampFault := rfl
@[simp] theorem storeFrame_rampErr (s : State) (l : List Edge) : (s.storeFrame l).rampErr = s.rampErr := rfl
@[simp] theorem storeFrame_err (s : State) (l : List Edge) : (s.storeFrame l).err = s.err := rfl
@[simp] theorem storeFrame_elen (s : State) (l : List Edge) : (s.storeFrame l).elen = BitVec.ofNat 10 l.length := rfl
@[simp] theorem storeFrame_eb (s : State) (l : List Edge) : (s.storeFrame l).eb = l := rfl
@[simp] theorem storeFrame_txOpen (s : State) (l : List Edge) : (s.storeFrame l).txOpen = s.txOpen := rfl
@[simp] theorem storeFrame_txProto (s : State) (l : List Edge) : (s.storeFrame l).txProto = s.txProto := rfl
@[simp] theorem storeFrame_txCarrier (s : State) (l : List Edge) : (s.storeFrame l).txCarrier = s.txCarrier := rfl
@[simp] theorem storeFrame_level (s : State) (l : List Edge) : (s.storeFrame l).level = s.level := rfl
@[simp] theorem storeFrame_lastPowerChange (s : State) (l : List Edge) : (s.storeFrame l).lastPowerChange = s.lastPowerChange := rfl
@[simp] theorem storeFrame_canTurnOnSince (s : State) (l : List Edge) : (s.storeFrame l).canTurnOnSince = s.canTurnOnSince := rfl
@[simp] theorem storeFrame_shallTurnOffSince (s : State) (l : List Edge) : (s.storeFrame l).shallTurnOffSince = s.shallTurnOffSince := rfl
@[simp] theorem storeFrame_rampRemaining (s : State) (l : List Edge) : (s.storeFrame l).rampRemaining = s.rampRemaining := rfl
@[simp] theorem storeFrame_rampNext (s : State) (l : List Edge) : (s.storeFrame l).rampNext = s.rampNext := rfl
@[simp] theorem storeFrame_time (s : State) (l : List Edge) : (s.storeFrame l).time = s.time := rfl
@[simp] theorem storeFrame_txlog (s : State) (l : List Edge) : (s.storeFrame l).txlog = s.txlog := rfl
@[simp] theorem storeFrame_requests (s : State) (l : List Edge) : (s.storeFrame l).requests = s.requests := rfl
@[simp] theorem storeFrame_schedule (s : State) (l : List Edge) : (s.storeFrame l).schedule = s.schedule := rfl
@[simp] theorem storeFrame_openAnswers (s : State) (l : List Edge) : (s.storeFrame l).openAnswers = s.openAnswers := rfl
@[simp] theorem storeFrame_writeAnswers (s : State) (l : List Edge) : (s.storeFrame l).writeAnswers = s.writeAnswers := rfl
@[simp] theorem storeFrame_draws (s : State) (l : List Edge) : (s.storeFrame l).draws = s.draws := rfl

/-! ### bindHandle -/
@[simp] theorem bindHandle_cfg (s : State) (p : Proto) : (s.bindHandle p).cfg = s.cfg := rfl
@[simp] theorem bindHandle_isOn (s : State) (p : Proto) : (s.bindHandle p).isOn = s.isOn := rfl
@[simp] theorem bindHandle_canTurnOn (s : State) (p : Proto) : (s.bindHandle p).canTurnOn = s.canTurnOn := rfl
@[simp] theorem bindHandle_shallTurnOff (s : State) (p : Proto) : (s.bindHandle p).shallTurnOff = s.shallTurnOff := rfl
@[simp] theorem bindHandle_v (s : State) (p : Proto) : (s.bindHandle p).v = s.v := rfl
@[simp] theorem bindHandle_rampFault (s : State) (p : Proto) : (s.bindHandle p).rampFault = s.rampFault := rfl
@[simp] theorem bindHandle_rampErr (s : State) (p : Proto) : (s.bindHandle p).rampErr = s.rampErr := rfl
@[simp] theorem bindHandle_err (s : State) (p : Proto) : (s.bindHandle p).err = s.err := rfl
@[simp] theorem bindHandle_elen (s : State) (p : Proto) : (s.bindHandle p).elen = s.elen := rfl
@[simp] theorem bindHandle_eb (s : State) (p : Proto) : (s.bindHandle p).eb = s.eb := rfl
@[simp] theorem bindHandle_txOpen (s : State) (p : Proto) : (s.bindHandle p).txOpen = true := rfl
@[simp] theorem bindHandle_txProto (s : State) (p : Proto) : (s.bindHandle p).txProto = p := rfl
@[simp] theorem bindHandle_txCarrier (s : State) (p : Proto) : (s.bindHandle p).txCarrier = (s.cfg.row p).carrierHz := rfl
@[simp] theorem bindHandle_level (s : State) (p : Proto) : (s.bindHandle p).level = s.level := rfl
@[simp] theorem bindHandle_lastPowerChange (s : State) (p : Proto) : (s.bindHandle p).lastPowerChange = s.lastPowerChange := rfl
@[simp] theorem bindHandle_canTurnOnSince (s : State) (p : Proto) : (s.bindHandle p).canTurnOnSince = s.canTurnOnSince := rfl
@[simp] theorem bindHandle_shallTurnOffSince (s : State) (p : Proto) : (s.bindHandle p).shallTurnOffSince = s.shallTurnOffSince := rfl
@[simp] theorem bindHandle_rampRemaining (s : State) (p : Proto) : (s.bindHandle p).rampRemaining = s.rampRemaining := rfl
@[simp] theorem bindHandle_rampNext (s : State) (p : Proto) : (s.bindHandle p).rampNext = s.rampNext := rfl
@[simp] theorem bindHandle_time (s : State) (p : Proto) : (s.bindHandle p).time = s.time := rfl
@[simp] theorem bindHandle_txlog (s : State) (p : Proto) : (s.bindHandle p).txlog = s.txlog := rfl
@[simp] theorem bindHandle_requests (s : State) (p : Proto) : (s.bindHandle p).requests = s.requests := rfl
@[simp] theorem bindHandle_schedule (s : State) (p : Proto) : (s.bindHandle p).schedule = s.schedule := rfl
@[simp] theorem bindHandle_openAnswers (s : State) (p : Proto) : (s.bindHandle p).openAnswers = s.openAnswers := rfl
@[simp] theorem bindHandle_writeAnswers (s : State) (p : Proto) : (s.bindHandle p).writeAnswers = s.writeAnswers := rfl
@[simp] theorem bindHandle_draws (s : State) (p : Proto) : (s.bindHandle p).draws = s.draws := rfl

/-! ### dropHandle -/
@[simp] theorem dropHandle_cfg (s : State) : (s.dropHandle).cfg = s.cfg := rfl
@[simp] theorem dropHandle_isOn (s : State) : (s.dropHandle).isOn = s.isOn := rfl
@[simp] theorem dropHandle_canTurnOn (s : State) : (s.dropHandle).canTurnOn = s.canTurnOn := rfl
@[simp] theorem dropHandle_shallTurnOff (s : State) : (s.dropHandle).shallTurnOff = s.shallTurnOff := rfl
@[simp] theorem dropHandle_v (s : State) : (s.dropHandle).v = s.v := rfl
@[simp] theorem dropHandle_rampFault (s : State) : (s.dropHandle).rampFault = s.rampFault := rfl
@[simp] theorem dropHandle_rampErr (s : State) : (s.dropHandle).rampErr = s.rampErr := rfl
@[simp] theorem dropHandle_err (s : State) : (s.dropHandle).err = s.err := rfl
@[simp] theorem dropHandle_elen (s : State) : (s.dropHandle).elen = s.elen := rfl
@[simp] theorem dropHandle_eb (s : State) : (s.dropHandle).eb = s.eb := rfl
@[simp] theorem dropHandle_txOpen (s : State) : (s.dropHandle).txOpen = false := rfl
@[simp] theorem dropHandle_txProto (s : State) : (s.dropHandle).txProto = Config.freeTxProto s.draws := rfl
@[simp] theorem dropHandle_txCarrier (s : State) : (s.dropHandle).txCarrier = Config.freeTxCarrier s.draws := rfl
@[simp] theorem dropHandle_level (s : State) : (s.dropHandle).level = s.level := rfl
@[simp] theorem dropHandle_lastPowerChange (s : State) : (s.dropHandle).lastPowerChange = s.lastPowerChange := rfl
@[simp] theorem dropHandle_canTurnOnSince (s : State) : (s.dropHandle).canTurnOnSince = s.canTurnOnSince := rfl
@[simp] theorem dropHandle_shallTurnOffSince (s : State) : (s.dropHandle).shallTurnOffSince = s.shallTurnOffSince := rfl
@[simp] theorem dropHandle_rampRemaining (s : State) : (s.dropHandle).rampRemaining = s.rampRemaining := rfl
@[simp] theorem dropHandle_rampNext (s : State) : (s.dropHandle).rampNext = s.rampNext := rfl
@[simp] theorem dropHandle_time (s : State) : (s.dropHandle).time = s.time := rfl
@[simp] theorem dropHandle_txlog (s : State) : (s.dropHandle).txlog = s.txlog := rfl
@[simp] theorem dropHandle_requests (s : State) : (s.dropHandle).requests = s.requests := rfl
@[simp] theorem dropHandle_schedule (s : State) : (s.dropHandle).schedule = s.schedule := rfl
@[simp] theorem dropHandle_openAnswers (s : State) : (s.dropHandle).openAnswers = s.openAnswers := rfl
@[simp] theorem dropHandle_writeAnswers (s : State) : (s.dropHandle).writeAnswers = s.writeAnswers := rfl
@[simp] theorem dropHandle_draws (s : State) : (s.dropHandle).draws = s.draws + 1 := rfl

/-! ### turnOn -/
@[simp] theorem turnOn_cfg (s : State) : (s.turnOn).cfg = s.cfg := rfl
@[simp] theorem turnOn_isOn (s : State) : (s.turnOn).isOn = true := rfl
@[simp] theorem turnOn_canTurnOn (s : State) : (s.turnOn).canTurnOn = false := rfl
@[simp] theorem turnOn_shallTurnOff (s : State) : (s.turnOn).shallTurnOff = s.shallTurnOff := rfl
@[simp] theorem turnOn_v (s : State) : (s.turnOn).v = s.v := rfl
@[simp] theorem turnOn_rampFault (s : State) : (s.turnOn).rampFault = s.rampFault := rfl
@[simp] theorem turnOn_rampErr (s : State) : (s.turnOn).rampErr = s.rampErr := rfl
@[simp] theorem turnOn_err (s : State) : (s.turnOn).err = s.err := rfl
@[simp] theorem turnOn_elen (s : State) : (s.turnOn).elen = s.elen := rfl
@[simp] theorem turnOn_eb (s : State) : (s.turnOn).eb = s.eb := rfl
@[simp] theorem turnOn_txOpen (s : State) : (s.turnOn).txOpen = s.txOpen := rfl
@[simp] theorem turnOn_txProto (s : State) : (s.turnOn).txProto = s.txProto := rfl
@[simp] theorem turnOn_txCarrier (s : State) : (s.turnOn).txCarrier = s.txCarrier := rfl
@[simp] theorem turnOn_level (s : State) : (s.turnOn).level = 0 := rfl
@[simp] theorem turnOn_lastPowerChange (s : State) : (s.turnOn).lastPowerChange = s.lastPowerChange := rfl
@[simp] theorem turnOn_canTurnOnSince (s : State) : (s.turnOn).canTurnOnSince = s.canTurnOnSince := rfl
@[simp] theorem turnOn_shallTurnOffSince (s : State) : (s.turnOn).shallTurnOffSince = s.shallTurnOffSince := rfl
@[simp] theorem turnOn_rampRemaining (s : State) : (s.turnOn).rampRemaining = s.rampRemaining := rfl
@[simp] theorem turnOn_rampNext (s : State) : (s.turnOn).rampNext = s.rampNext := rfl
@[simp] theorem turnOn_time (s : State) : (s.turnOn).time = s.time := rfl
@[simp] theorem turnOn_txlog (s : State) : (s.turnOn).txlog = s.txlog := rfl
@[simp] theorem turnOn_requests (s : State) : (s.turnOn).requests = s.requests := rfl
@[simp] theorem turnOn_schedule (s : State) : (s.turnOn).schedule = s.schedule := rfl
@[simp] theorem turnOn_openAnswers (s : State) : (s.turnOn).openAnswers = s.openAnswers := rfl
@[simp] theorem turnOn_writeAnswers (s : State) : (s.turnOn).writeAnswers = s.writeAnswers := rfl
@[simp] theorem turnOn_draws (s : State) : (s.turnOn).draws = s.draws := rfl

/-! ### turnOff -/
@[simp] theorem turnOff_cfg (s : State) : (s.turnOff).cfg = s.cfg := rfl
@[simp] theorem turnOff_isOn (s : State) : (s.turnOff).isOn = false := rfl
@[simp] theorem turnOff_canTurnOn (s : State) : (s.turnOff).canTurnOn = s.canTurnOn := rfl
@[simp] theorem turnOff_shallTurnOff (s : State) : (s.turnOff).shallTurnOff = false := rfl
@[simp] theorem turnOff_v (s : State) : (s.turnOff).v = s.v := rfl
@[simp] theorem turnOff_rampFault (s : State) : (s.turnOff).rampFault = s.rampFault := rfl
@[simp] theorem turnOff_rampErr (s : State) : (s.turnOff).rampErr = s.rampErr := rfl
@[simp] theorem turnOff_err (s : State) : (s.turnOff).err = s.err := rfl
@[simp] theorem turnOff_elen (s : State) : (s.turnOff).elen = s.elen := rfl
@[simp] theorem turnOff_eb (s : State) : (s.turnOff).eb = s.eb := rfl
@[simp] theorem turnOff_txOpen (s : State) : (s.turnOff).txOpen = s.txOpen := rfl
@[simp] theorem turnOff_txProto (s : State) : (s.turnOff).txProto = s.txProto := rfl
@[simp] theorem turnOff_txCarrier (s : State) : (s.turnOff).txCarrier = s.txCarrier := rfl
@[simp] theorem turnOff_level (s : State) : (s.turnOff).level = s.level := rfl
@[simp] theorem turnOff_lastPowerChange (s : State) : (s.turnOff).lastPowerChange = s.lastPowerChange := rfl
@[simp] theorem turnOff_canTurnOnSince (s : State) : (s.turnOff).canTurnOnSince = s.canTurnOnSince := rfl
@[simp] theorem turnOff_shallTurnOffSince (s : State) : (s.turnOff).shallTurnOffSince = s.shallTurnOffSince := rfl
@[simp] theorem turnOff_rampRemaining (s : State) : (s.turnOff).rampRemaining = s.rampRemaining := rfl
@[simp] theorem turnOff_rampNext (s : State) : (s.turnOff).rampNext = s.rampNext := rfl
@[simp] theorem turnOff_time (s : State) : (s.turnOff).time = s.time := rfl
@[simp] theorem turnOff_txlog (s : State) : (s.turnOff).txlog = s.txlog := rfl
@[simp] theorem turnOff_requests (s : State) : (s.turnOff).requests = s.requests := rfl
@[simp] theorem turnOff_schedule (s : State) : (s.turnOff).schedule = s.schedule := rfl
@[simp] theorem turnOff_openAnswers (s : State) : (s.turnOff).openAnswers = s.openAnswers := rfl
@[simp] theorem turnOff_writeAnswers (s : State) : (s.turnOff).writeAnswers = s.writeAnswers := rfl
@[simp] theorem turnOff_draws (s : State) : (s.turnOff).draws = s.draws := rfl

/-! ### clearCanTurnOn -/
@[simp] theorem clearCanTurnOn_cfg (s : State) : (s.clearCanTurnOn).cfg = s.cfg := rfl
@[simp] theorem clearCanTurnOn_isOn (s : State) : (s.clearCanTurnOn).isOn = s.isOn := rfl
@[simp] theorem clearCanTurnOn_canTurnOn (s : State) : (s.clearCanTurnOn).canTurnOn = false := rfl
@[simp] theorem clearCanTurnOn_shallTurnOff (s : State) : (s.clearCanTurnOn).shallTurnOff = s.shallTurnOff := rfl
@[simp] theorem clearCanTurnOn_v (s : State) : (s.clearCanTurnOn).v = s.v := rfl
@[simp] theorem clearCanTurnOn_rampFault (s : State) : (s.clearCanTurnOn).rampFault = s.rampFault := rfl
@[simp] theorem clearCanTurnOn_rampErr (s : State) : (s.clearCanTurnOn).rampErr = s.rampErr := rfl
@[simp] theorem clearCanTurnOn_err (s : State) : (s.clearCanTurnOn).err = s.err := rfl
@[simp] theorem clearCanTurnOn_elen (s : State) : (s.clearCanTurnOn).elen = s.elen := rfl
@[simp] theorem clearCanTurnOn_eb (s : State) : (s.clearCanTurnOn).eb = s.eb := rfl
@[simp] theorem clearCanTurnOn_txOpen (s : State) : (s.clearCanTurnOn).txOpen = s.txOpen := rfl
@[simp] theorem clearCanTurnOn_txProto (s : State) : (s.clearCanTurnOn).txProto = s.txProto := rfl
@[simp] theorem clearCanTurnOn_txCarrier (s : State) : (s.clearCanTurnOn).txCarrier = s.txCarrier := rfl
@[simp] theorem clearCanTurnOn_level (s : State) : (s.clearCanTurnOn).level = s.level := rfl
@[simp] theorem clearCanTurnOn_lastPowerChange (s : State) : (s.clearCanTurnOn).lastPowerChange = s.lastPowerChange := rfl
@[simp] theorem clearCanTurnOn_canTurnOnSince (s : State) : (s.clearCanTurnOn).canTurnOnSince = s.canTurnOnSince := rfl
@[simp] theorem clearCanTurnOn_shallTurnOffSince (s : State) : (s.clearCanTurnOn).shallTurnOffSince = s.shallTurnOffSince := rfl
@[simp] theorem clearCanTurnOn_rampRemaining (s : State) : (s.clearCanTurnOn).rampRemaining = s.rampRemaining := rfl
@[simp] theorem clearCanTurnOn_rampNext (s : State) : (s.clearCanTurnOn).rampNext = s.rampNext := rfl
@[simp] theorem clearCanTurnOn_time (s : State) : (s.clearCanTurnOn).time = s.time := rfl
@[simp] theorem clearCanTurnOn_txlog (s : State) : (s.clearCanTurnOn).txlog = s.txlog := rfl
@[simp] theorem clearCanTurnOn_requests (s : State) : (s.clearCanTurnOn).requests = s.requests := rfl
@[simp] theorem clearCanTurnOn_schedule (s : State) : (s.clearCanTurnOn).schedule = s.schedule := rfl
@[simp] theorem clearCanTurnOn_openAnswers (s : State) : (s.clearCanTurnOn).openAnswers = s.openAnswers := rfl
@[simp] theorem clearCanTurnOn_writeAnswers (s : State) : (s.clearCanTurnOn).writeAnswers = s.writeAnswers := rfl
@[simp] theorem clearCanTurnOn_draws (s : State) : (s.clearCanTurnOn).draws = s.draws := rfl

/-! ### clearShallTurnOff -/
@[simp] theorem clearShallTurnOff_cfg (s : State) : (s.clearShallTurnOff).cfg = s.cfg := rfl
@[simp] theorem clearShallTurnOff_isOn (s : State) : (s.clearShallTurnOff).isOn = s.isOn := rfl
@[simp] theorem clearShallTurnOff_canTurnOn (s : State) : (s.clearShallTurnOff).canTurnOn = s.canTurnOn := rfl
@[simp] theorem clearShallTurnOff_shallTurnOff (s : State) : (s.clearShallTurnOff).shallTurnOff = false := rfl
@[simp] theorem clearShallTurnOff_v (s : State) : (s.clearShallTurnOff).v = s.v := rfl
@[simp] theorem clearShallTurnOff_rampFault (s : State) : (s.clearShallTurnOff).rampFault = s.rampFault := rfl
@[simp] theorem clearShallTurnOff_rampErr (s : State) : (s.clearShallTurnOff).rampErr = s.rampErr := rfl
@[simp] theorem clearShallTurnOff_err (s : State) : (s.clearShallTurnOff).err = s.err := rfl
@[simp] theorem clearShallTurnOff_elen (s : State) : (s.clearShallTurnOff).elen = s.elen := rfl
@[simp] theorem clearShallTurnOff_eb (s : State) : (s.clearShallTurnOff).eb = s.eb := rfl
@[simp] theorem clearShallTurnOff_txOpen (s : State) : (s.clearShallTurnOff).txOpen = s.txOpen := rfl
@[simp] theorem clearShallTurnOff_txProto (s : State) : (s.clearShallTurnOff).txProto = s.txProto := rfl
@[simp] theorem clearShallTurnOff_txCarrier (s : State) : (s.clearShallTurnOff).txCarrier = s.txCarrier := rfl
@[simp] theorem clearShallTurnOff_level (s : State) : (s.clearShallTurnOff).level = s.level := rfl
@[simp] theorem clearShallTurnOff_lastPowerChange (s : State) : (s.clearShallTurnOff).lastPowerChange = s.lastPowerChange := rfl
@[simp] theorem clearShallTurnOff_canTurnOnSince (s : State) : (s.clearShallTurnOff).canTurnOnSince = s.canTurnOnSince := rfl
@[simp] theorem clearShallTurnOff_shallTurnOffSince (s : State) : (s.clearShallTurnOff).shallTurnOffSince = s.shallTurnOffSince := rfl
@[simp] theorem clearShallTurnOff_rampRemaining (s : State) : (s.clearShallTurnOff).rampRemaining = s.rampRemaining := rfl
@[simp] theorem clearShallTurnOff_rampNext (s : State) : (s.clearShallTurnOff).rampNext = s.rampNext := rfl
@[simp] theorem clearShallTurnOff_time (s : State) : (s.clearShallTurnOff).time = s.time := rfl
@[simp] theorem clearShallTurnOff_txlog (s : State) : (s.clearShallTurnOff).txlog = s.txlog := rfl
@[simp] theorem clearShallTurnOff_requests (s : State) : (s.clearShallTurnOff).requests = s.requests := rfl
@[simp] theorem clearShallTurnOff_schedule (s : State) : (s.clearShallTurnOff).schedule = s.schedule := rfl
@[simp] theorem clearShallTurnOff_openAnswers (s : State) : (s.clearShallTurnOff).openAnswers = s.openAnswers := rfl
@[simp] theorem clearShallTurnOff_writeAnswers (s : State) : (s.clearShallTurnOff).writeAnswers = s.writeAnswers := rfl
@[simp] theorem clearShallTurnOff_draws (s : State) : (s.clearShallTurnOff).draws = s.draws := rfl

/-! ### armRamp -/
@[simp] theorem armRamp_cfg (s : State) (g : Level) : (s.armRamp g).cfg = s.cfg := rfl
@[simp] theorem armRamp_isOn (s : State) (g : Level) : (s.armRamp g).isOn = s.isOn := rfl
@[simp] theorem armRamp_canTurnOn (s : State) (g : Level) : (s.armRamp g).canTurnOn = s.canTurnOn := rfl
@[simp] theorem armRamp_shallTurnOff (s : State) (g : Level) : (s.armRamp g).shallTurnOff = s.shallTurnOff := rfl
@[simp] theorem armRamp_v (s : State) (g : Level) : (s.armRamp g).v = s.v := rfl
@[simp] theorem armRamp_rampFault (s : State) (g : Level) : (s.armRamp g).rampFault = s.rampFault := rfl
@[simp] theorem armRamp_rampErr (s : State) (g : Level) : (s.armRamp g).rampErr = s.rampErr := rfl
@[simp] theorem armRamp_err (s : State) (g : Level) : (s.armRamp g).err = s.err := rfl
@[simp] theorem armRamp_elen (s : State) (g : Level) : (s.armRamp g).elen = s.elen := rfl
@[simp] theorem armRamp_eb (s : State) (g : Level) : (s.armRamp g).eb = s.eb := rfl
@[simp] theorem armRamp_txOpen (s : State) (g : Level) : (s.armRamp g).txOpen = s.txOpen := rfl
@[simp] theorem armRamp_txProto (s : State) (g : Level) : (s.armRamp g).txProto = s.txProto := rfl
@[simp] theorem armRamp_txCarrier (s : State) (g : Level) : (s.armRamp g).txCarrier = s.txCarrier := rfl
@[simp] theorem armRamp_level (s : State) (g : Level) : (s.armRamp g).level = s.level := rfl
@[simp] theorem armRamp_lastPowerChange (s : State) (g : Level) : (s.armRamp g).lastPowerChange = s.time := rfl
@[simp] theorem armRamp_canTurnOnSince (s : State) (g : Level) : (s.armRamp g).canTurnOnSince = s.canTurnOnSince := rfl
@[simp] theorem armRamp_shallTurnOffSince (s : State) (g : Level) : (s.armRamp g).shallTurnOffSince = s.shallTurnOffSince := rfl
@[simp] theorem armRamp_rampRemaining (s : State) (g : Level) : (s.armRamp g).rampRemaining = pressCount g s.level := rfl
@[simp] theorem armRamp_rampNext (s : State) (g : Level) : (s.armRamp g).rampNext = s.time := rfl
@[simp] theorem armRamp_time (s : State) (g : Level) : (s.armRamp g).time = s.time := rfl
@[simp] theorem armRamp_txlog (s : State) (g : Level) : (s.armRamp g).txlog = s.txlog := rfl
@[simp] theorem armRamp_requests (s : State) (g : Level) : (s.armRamp g).requests = s.requests := rfl
@[simp] theorem armRamp_schedule (s : State) (g : Level) : (s.armRamp g).schedule = s.schedule := rfl
@[simp] theorem armRamp_openAnswers (s : State) (g : Level) : (s.armRamp g).openAnswers = s.openAnswers := rfl
@[simp] theorem armRamp_writeAnswers (s : State) (g : Level) : (s.armRamp g).writeAnswers = s.writeAnswers := rfl
@[simp] theorem armRamp_draws (s : State) (g : Level) : (s.armRamp g).draws = s.draws := rfl

/-! ### stepLevel -/
@[simp] theorem stepLevel_cfg (s : State) : (s.stepLevel).cfg = s.cfg := rfl
@[simp] theorem stepLevel_isOn (s : State) : (s.stepLevel).isOn = s.isOn := rfl
@[simp] theorem stepLevel_canTurnOn (s : State) : (s.stepLevel).canTurnOn = s.canTurnOn := rfl
@[simp] theorem stepLevel_shallTurnOff (s : State) : (s.stepLevel).shallTurnOff = s.shallTurnOff := rfl
@[simp] theorem stepLevel_v (s : State) : (s.stepLevel).v = s.v := rfl
@[simp] theorem stepLevel_rampFault (s : State) : (s.stepLevel).rampFault = s.rampFault := rfl
@[simp] theorem stepLevel_rampErr (s : State) : (s.stepLevel).rampErr = s.rampErr := rfl
@[simp] theorem stepLevel_err (s : State) : (s.stepLevel).err = s.err := rfl
@[simp] theorem stepLevel_elen (s : State) : (s.stepLevel).elen = s.elen := rfl
@[simp] theorem stepLevel_eb (s : State) : (s.stepLevel).eb = s.eb := rfl
@[simp] theorem stepLevel_txOpen (s : State) : (s.stepLevel).txOpen = s.txOpen := rfl
@[simp] theorem stepLevel_txProto (s : State) : (s.stepLevel).txProto = s.txProto := rfl
@[simp] theorem stepLevel_txCarrier (s : State) : (s.stepLevel).txCarrier = s.txCarrier := rfl
@[simp] theorem stepLevel_level (s : State) : (s.stepLevel).level = ⟨(s.level.val + 1) % nLevels, Nat.mod_lt _ (by decide)⟩ := rfl
@[simp] theorem stepLevel_lastPowerChange (s : State) : (s.stepLevel).lastPowerChange = s.lastPowerChange := rfl
@[simp] theorem stepLevel_canTurnOnSince (s : State) : (s.stepLevel).canTurnOnSince = s.canTurnOnSince := rfl
@[simp] theorem stepLevel_shallTurnOffSince (s : State) : (s.stepLevel).shallTurnOffSince = s.shallTurnOffSince := rfl
@[simp] theorem stepLevel_rampRemaining (s : State) : (s.stepLevel).rampRemaining = s.rampRemaining := rfl
@[simp] theorem stepLevel_rampNext (s : State) : (s.stepLevel).rampNext = s.rampNext := rfl
@[simp] theorem stepLevel_time (s : State) : (s.stepLevel).time = s.time := rfl
@[simp] theorem stepLevel_txlog (s : State) : (s.stepLevel).txlog = s.txlog := rfl
@[simp] theorem stepLevel_requests (s : State) : (s.stepLevel).requests = s.requests := rfl
@[simp] theorem stepLevel_schedule (s : State) : (s.stepLevel).schedule = s.schedule := rfl
@[simp] theorem stepLevel_openAnswers (s : State) : (s.stepLevel).openAnswers = s.openAnswers := rfl
@[simp] theorem stepLevel_writeAnswers (s : State) : (s.stepLevel).writeAnswers = s.writeAnswers := rfl
@[simp] theorem stepLevel_draws (s : State) : (s.stepLevel).draws = s.draws := rfl

/-! ### pressDone -/
@[simp] theorem pressDone_cfg (s : State) : (s.pressDone).cfg = s.cfg := rfl
@[simp] theorem pressDone_isOn (s : State) : (s.pressDone).isOn = s.isOn := rfl
@[simp] theorem pressDone_canTurnOn (s : State) : (s.pressDone).canTurnOn = s.canTurnOn := rfl
@[simp] theorem pressDone_shallTurnOff (s : State) : (s.pressDone).shallTurnOff = s.shallTurnOff := rfl
@[simp] theorem pressDone_v (s : State) : (s.pressDone).v = s.v := rfl
@[simp] theorem pressDone_rampFault (s : State) : (s.pressDone).rampFault = s.rampFault := rfl
@[simp] theorem pressDone_rampErr (s : State) : (s.pressDone).rampErr = s.rampErr := rfl
@[simp] theorem pressDone_err (s : State) : (s.pressDone).err = s.err := rfl
@[simp] theorem pressDone_elen (s : State) : (s.pressDone).elen = s.elen := rfl
@[simp] theorem pressDone_eb (s : State) : (s.pressDone).eb = s.eb := rfl
@[simp] theorem pressDone_txOpen (s : State) : (s.pressDone).txOpen = s.txOpen := rfl
@[simp] theorem pressDone_txProto (s : State) : (s.pressDone).txProto = s.txProto := rfl
@[simp] theorem pressDone_txCarrier (s : State) : (s.pressDone).txCarrier = s.txCarrier := rfl
@[simp] theorem pressDone_level (s : State) : (s.pressDone).level = s.level := rfl
@[simp] theorem pressDone_lastPowerChange (s : State) : (s.pressDone).lastPowerChange = s.lastPowerChange := rfl
@[simp] theorem pressDone_canTurnOnSince (s : State) : (s.pressDone).canTurnOnSince = s.canTurnOnSince := rfl
@[simp] theorem pressDone_shallTurnOffSince (s : State) : (s.pressDone).shallTurnOffSince = s.shallTurnOffSince := rfl
@[simp] theorem pressDone_rampRemaining (s : State) : (s.pressDone).rampRemaining = ⟨s.rampRemaining.val - 1, by omega⟩ := rfl
@[simp] theorem pressDone_rampNext (s : State) : (s.pressDone).rampNext = s.rampNext + s.cfg.tPress := rfl
@[simp] theorem pressDone_time (s : State) : (s.pressDone).time = s.time := rfl
@[simp] theorem pressDone_txlog (s : State) : (s.pressDone).txlog = s.txlog := rfl
@[simp] theorem pressDone_requests (s : State) : (s.pressDone).requests = s.requests := rfl
@[simp] theorem pressDone_schedule (s : State) : (s.pressDone).schedule = s.schedule := rfl
@[simp] theorem pressDone_openAnswers (s : State) : (s.pressDone).openAnswers = s.openAnswers := rfl
@[simp] theorem pressDone_writeAnswers (s : State) : (s.pressDone).writeAnswers = s.writeAnswers := rfl
@[simp] theorem pressDone_draws (s : State) : (s.pressDone).draws = s.draws := rfl

/-! ### tick -/
@[simp] theorem tick_cfg (s : State) : ((tick s)).cfg = s.cfg := rfl
@[simp] theorem tick_isOn (s : State) : ((tick s)).isOn = s.isOn := rfl
@[simp] theorem tick_canTurnOn (s : State) : ((tick s)).canTurnOn = s.canTurnOn := rfl
@[simp] theorem tick_shallTurnOff (s : State) : ((tick s)).shallTurnOff = s.shallTurnOff := rfl
@[simp] theorem tick_v (s : State) : ((tick s)).v = s.v := rfl
@[simp] theorem tick_rampFault (s : State) : ((tick s)).rampFault = s.rampFault := rfl
@[simp] theorem tick_rampErr (s : State) : ((tick s)).rampErr = s.rampErr := rfl
@[simp] theorem tick_err (s : State) : ((tick s)).err = s.err := rfl
@[simp] theorem tick_elen (s : State) : ((tick s)).elen = s.elen := rfl
@[simp] theorem tick_eb (s : State) : ((tick s)).eb = s.eb := rfl
@[simp] theorem tick_txOpen (s : State) : ((tick s)).txOpen = s.txOpen := rfl
@[simp] theorem tick_txProto (s : State) : ((tick s)).txProto = s.txProto := rfl
@[simp] theorem tick_txCarrier (s : State) : ((tick s)).txCarrier = s.txCarrier := rfl
@[simp] theorem tick_level (s : State) : ((tick s)).level = s.level := rfl
@[simp] theorem tick_lastPowerChange (s : State) : ((tick s)).lastPowerChange = s.lastPowerChange := rfl
@[simp] theorem tick_canTurnOnSince (s : State) : ((tick s)).canTurnOnSince = s.canTurnOnSince := rfl
@[simp] theorem tick_shallTurnOffSince (s : State) : ((tick s)).shallTurnOffSince = s.shallTurnOffSince := rfl
@[simp] theorem tick_rampRemaining (s : State) : ((tick s)).rampRemaining = s.rampRemaining := rfl
@[simp] theorem tick_rampNext (s : State) : ((tick s)).rampNext = s.rampNext := rfl
@[simp] theorem tick_time (s : State) : ((tick s)).time = s.time + 1 := rfl
@[simp] theorem tick_txlog (s : State) : ((tick s)).txlog = s.txlog := rfl
@[simp] theorem tick_requests (s : State) : ((tick s)).requests = s.requests := rfl
@[simp] theorem tick_schedule (s : State) : ((tick s)).schedule = s.schedule := rfl
@[simp] theorem tick_openAnswers (s : State) : ((tick s)).openAnswers = s.openAnswers := rfl
@[simp] theorem tick_writeAnswers (s : State) : ((tick s)).writeAnswers = s.writeAnswers := rfl
@[simp] theorem tick_draws (s : State) : ((tick s)).draws = s.draws := rfl

/-! ### dropRequest -/
@[simp] theorem dropRequest_cfg (s : State) : (s.dropRequest).cfg = s.cfg := rfl
@[simp] theorem dropRequest_isOn (s : State) : (s.dropRequest).isOn = s.isOn := rfl
@[simp] theorem dropRequest_canTurnOn (s : State) : (s.dropRequest).canTurnOn = s.canTurnOn := rfl
@[simp] theorem dropRequest_shallTurnOff (s : State) : (s.dropRequest).shallTurnOff = s.shallTurnOff := rfl
@[simp] theorem dropRequest_v (s : State) : (s.dropRequest).v = s.v := rfl
@[simp] theorem dropRequest_rampFault (s : State) : (s.dropRequest).rampFault = s.rampFault := rfl
@[simp] theorem dropRequest_rampErr (s : State) : (s.dropRequest).rampErr = s.rampErr := rfl
@[simp] theorem dropRequest_err (s : State) : (s.dropRequest).err = s.err := rfl
@[simp] theorem dropRequest_elen (s : State) : (s.dropRequest).elen = s.elen := rfl
@[simp] theorem dropRequest_eb (s : State) : (s.dropRequest).eb = s.eb := rfl
@[simp] theorem dropRequest_txOpen (s : State) : (s.dropRequest).txOpen = s.txOpen := rfl
@[simp] theorem dropRequest_txProto (s : State) : (s.dropRequest).txProto = s.txProto := rfl
@[simp] theorem dropRequest_txCarrier (s : State) : (s.dropRequest).txCarrier = s.txCarrier := rfl
@[simp] theorem dropRequest_level (s : State) : (s.dropRequest).level = s.level := rfl
@[simp] theorem dropRequest_lastPowerChange (s : State) : (s.dropRequest).lastPowerChange = s.lastPowerChange := rfl
@[simp] theorem dropRequest_canTurnOnSince (s : State) : (s.dropRequest).canTurnOnSince = s.canTurnOnSince := rfl
@[simp] theorem dropRequest_shallTurnOffSince (s : State) : (s.dropRequest).shallTurnOffSince = s.shallTurnOffSince := rfl
@[simp] theorem dropRequest_rampRemaining (s : State) : (s.dropRequest).rampRemaining = s.rampRemaining := rfl
@[simp] theorem dropRequest_rampNext (s : State) : (s.dropRequest).rampNext = s.rampNext := rfl
@[simp] theorem dropRequest_time (s : State) : (s.dropRequest).time = s.time := rfl
@[simp] theorem dropRequest_txlog (s : State) : (s.dropRequest).txlog = s.txlog := rfl
@[simp] theorem dropRequest_requests (s : State) : (s.dropRequest).requests = s.requests.tail := rfl
@[simp] theorem dropRequest_schedule (s : State) : (s.dropRequest).schedule = s.schedule := rfl
@[simp] theorem dropRequest_openAnswers (s : State) : (s.dropRequest).openAnswers = s.openAnswers := rfl
@[simp] theorem dropRequest_writeAnswers (s : State) : (s.dropRequest).writeAnswers = s.writeAnswers := rfl
@[simp] theorem dropRequest_draws (s : State) : (s.dropRequest).draws = s.draws := rfl

/-! ### offerRequest -/
@[simp] theorem offerRequest_cfg (s : State) (w : Request) : ((s.offerRequest w)).cfg = s.cfg := rfl
@[simp] theorem offerRequest_isOn (s : State) (w : Request) : ((s.offerRequest w)).isOn = s.isOn := rfl
@[simp] theorem offerRequest_canTurnOn (s : State) (w : Request) : ((s.offerRequest w)).canTurnOn = s.canTurnOn := rfl
@[simp] theorem offerRequest_shallTurnOff (s : State) (w : Request) : ((s.offerRequest w)).shallTurnOff = s.shallTurnOff := rfl
@[simp] theorem offerRequest_v (s : State) (w : Request) : ((s.offerRequest w)).v = s.v := rfl
@[simp] theorem offerRequest_rampFault (s : State) (w : Request) : ((s.offerRequest w)).rampFault = s.rampFault := rfl
@[simp] theorem offerRequest_rampErr (s : State) (w : Request) : ((s.offerRequest w)).rampErr = s.rampErr := rfl
@[simp] theorem offerRequest_err (s : State) (w : Request) : ((s.offerRequest w)).err = s.err := rfl
@[simp] theorem offerRequest_elen (s : State) (w : Request) : ((s.offerRequest w)).elen = s.elen := rfl
@[simp] theorem offerRequest_eb (s : State) (w : Request) : ((s.offerRequest w)).eb = s.eb := rfl
@[simp] theorem offerRequest_txOpen (s : State) (w : Request) : ((s.offerRequest w)).txOpen = s.txOpen := rfl
@[simp] theorem offerRequest_txProto (s : State) (w : Request) : ((s.offerRequest w)).txProto = s.txProto := rfl
@[simp] theorem offerRequest_txCarrier (s : State) (w : Request) : ((s.offerRequest w)).txCarrier = s.txCarrier := rfl
@[simp] theorem offerRequest_level (s : State) (w : Request) : ((s.offerRequest w)).level = s.level := rfl
@[simp] theorem offerRequest_lastPowerChange (s : State) (w : Request) : ((s.offerRequest w)).lastPowerChange = s.lastPowerChange := rfl
@[simp] theorem offerRequest_canTurnOnSince (s : State) (w : Request) : ((s.offerRequest w)).canTurnOnSince = s.canTurnOnSince := rfl
@[simp] theorem offerRequest_shallTurnOffSince (s : State) (w : Request) : ((s.offerRequest w)).shallTurnOffSince = s.shallTurnOffSince := rfl
@[simp] theorem offerRequest_rampRemaining (s : State) (w : Request) : ((s.offerRequest w)).rampRemaining = s.rampRemaining := rfl
@[simp] theorem offerRequest_rampNext (s : State) (w : Request) : ((s.offerRequest w)).rampNext = s.rampNext := rfl
@[simp] theorem offerRequest_time (s : State) (w : Request) : ((s.offerRequest w)).time = s.time := rfl
@[simp] theorem offerRequest_txlog (s : State) (w : Request) : ((s.offerRequest w)).txlog = s.txlog := rfl
@[simp] theorem offerRequest_requests (s : State) (w : Request) : ((s.offerRequest w)).requests = w :: s.requests := rfl
@[simp] theorem offerRequest_schedule (s : State) (w : Request) : ((s.offerRequest w)).schedule = .host :: s.schedule := rfl
@[simp] theorem offerRequest_openAnswers (s : State) (w : Request) : ((s.offerRequest w)).openAnswers = s.openAnswers := rfl
@[simp] theorem offerRequest_writeAnswers (s : State) (w : Request) : ((s.offerRequest w)).writeAnswers = s.writeAnswers := rfl
@[simp] theorem offerRequest_draws (s : State) (w : Request) : ((s.offerRequest w)).draws = s.draws := rfl

/-! ### startCanTurnOn -/
@[simp] theorem startCanTurnOn_cfg (s : State) : (s.startCanTurnOn).cfg = s.cfg := by unfold State.startCanTurnOn; repeat (first | rfl | split)
@[simp] theorem startCanTurnOn_isOn (s : State) : (s.startCanTurnOn).isOn = s.isOn := by unfold State.startCanTurnOn; repeat (first | rfl | split)
@[simp] theorem startCanTurnOn_canTurnOn (s : State) : (s.startCanTurnOn).canTurnOn = true := by unfold State.startCanTurnOn; split <;> simp_all
@[simp] theorem startCanTurnOn_shallTurnOff (s : State) : (s.startCanTurnOn).shallTurnOff = s.shallTurnOff := by unfold State.startCanTurnOn; repeat (first | rfl | split)
@[simp] theorem startCanTurnOn_v (s : State) : (s.startCanTurnOn).v = s.v := by unfold State.startCanTurnOn; repeat (first | rfl | split)
@[simp] theorem startCanTurnOn_rampFault (s : State) : (s.startCanTurnOn).rampFault = s.rampFault := by unfold State.startCanTurnOn; repeat (first | rfl | split)
@[simp] theorem startCanTurnOn_rampErr (s : State) : (s.startCanTurnOn).rampErr = s.rampErr := by unfold State.startCanTurnOn; repeat (first | rfl | split)
@[simp] theorem startCanTurnOn_err (s : State) : (s.startCanTurnOn).err = s.err := by unfold State.startCanTurnOn; repeat (first | rfl | split)
@[simp] theorem startCanTurnOn_elen (s : State) : (s.startCanTurnOn).elen = s.elen := by unfold State.startCanTurnOn; repeat (first | rfl | split)
@[simp] theorem startCanTurnOn_eb (s : State) : (s.startCanTurnOn).eb = s.eb := by unfold State.startCanTurnOn; repeat (first | rfl | split)
@[simp] theorem startCanTurnOn_txOpen (s : State) : (s.startCanTurnOn).txOpen = s.txOpen := by unfold State.startCanTurnOn; repeat (first | rfl | split)
@[simp] theorem startCanTurnOn_txProto (s : State) : (s.startCanTurnOn).txProto = s.txProto := by unfold State.startCanTurnOn; repeat (first | rfl | split)
@[simp] theorem startCanTurnOn_txCarrier (s : State) : (s.startCanTurnOn).txCarrier = s.txCarrier := by unfold State.startCanTurnOn; repeat (first | rfl | split)
@[simp] theorem startCanTurnOn_level (s : State) : (s.startCanTurnOn).level = s.level := by unfold State.startCanTurnOn; repeat (first | rfl | split)
@[simp] theorem startCanTurnOn_lastPowerChange (s : State) : (s.startCanTurnOn).lastPowerChange = s.lastPowerChange := by unfold State.startCanTurnOn; repeat (first | rfl | split)
@[simp] theorem startCanTurnOn_shallTurnOffSince (s : State) : (s.startCanTurnOn).shallTurnOffSince = s.shallTurnOffSince := by unfold State.startCanTurnOn; repeat (first | rfl | split)
@[simp] theorem startCanTurnOn_rampRemaining (s : State) : (s.startCanTurnOn).rampRemaining = s.rampRemaining := by unfold State.startCanTurnOn; repeat (first | rfl | split)
@[simp] theorem startCanTurnOn_rampNext (s : State) : (s.startCanTurnOn).rampNext = s.rampNext := by unfold State.startCanTurnOn; repeat (first | rfl | split)
@[simp] theorem startCanTurnOn_time (s : State) : (s.startCanTurnOn).time = s.time := by unfold State.startCanTurnOn; repeat (first | rfl | split)
@[simp] theorem startCanTurnOn_txlog (s : State) : (s.startCanTurnOn).txlog = s.txlog := by unfold State.startCanTurnOn; repeat (first | rfl | split)
@[simp] theorem startCanTurnOn_requests (s : State) : (s.startCanTurnOn).requests = s.requests := by unfold State.startCanTurnOn; repeat (first | rfl | split)
@[simp] theorem startCanTurnOn_schedule (s : State) : (s.startCanTurnOn).schedule = s.schedule := by unfold State.startCanTurnOn; repeat (first | rfl | split)
@[simp] theorem startCanTurnOn_openAnswers (s : State) : (s.startCanTurnOn).openAnswers = s.openAnswers := by unfold State.startCanTurnOn; repeat (first | rfl | split)
@[simp] theorem startCanTurnOn_writeAnswers (s : State) : (s.startCanTurnOn).writeAnswers = s.writeAnswers := by unfold State.startCanTurnOn; repeat (first | rfl | split)
@[simp] theorem startCanTurnOn_draws (s : State) : (s.startCanTurnOn).draws = s.draws := by unfold State.startCanTurnOn; repeat (first | rfl | split)

/-! ### startShallTurnOff -/
@[simp] theorem startShallTurnOff_cfg (s : State) : (s.startShallTurnOff).cfg = s.cfg := by unfold State.startShallTurnOff; repeat (first | rfl | split)
@[simp] theorem startShallTurnOff_isOn (s : State) : (s.startShallTurnOff).isOn = s.isOn := by unfold State.startShallTurnOff; repeat (first | rfl | split)
@[simp] theorem startShallTurnOff_canTurnOn (s : State) : (s.startShallTurnOff).canTurnOn = s.canTurnOn := by unfold State.startShallTurnOff; repeat (first | rfl | split)
@[simp] theorem startShallTurnOff_shallTurnOff (s : State) : (s.startShallTurnOff).shallTurnOff = true := by unfold State.startShallTurnOff; split <;> simp_all
@[simp] theorem startShallTurnOff_v (s : State) : (s.startShallTurnOff).v = s.v := by unfold State.startShallTurnOff; repeat (first | rfl | split)
@[simp] theorem startShallTurnOff_rampFault (s : State) : (s.startShallTurnOff).rampFault = s.rampFault := by unfold State.startShallTurnOff; repeat (first | rfl | split)
@[simp] theorem startShallTurnOff_rampErr (s : State) : (s.startShallTurnOff).rampErr = s.rampErr := by unfold State.startShallTurnOff; repeat (first | rfl | split)
@[simp] theorem startShallTurnOff_err (s : State) : (s.startShallTurnOff).err = s.err := by unfold State.startShallTurnOff; repeat (first | rfl | split)
@[simp] theorem startShallTurnOff_elen (s : State) : (s.startShallTurnOff).elen = s.elen := by unfold State.startShallTurnOff; repeat (first | rfl | split)
@[simp] theorem startShallTurnOff_eb (s : State) : (s.startShallTurnOff).eb = s.eb := by unfold State.startShallTurnOff; repeat (first | rfl | split)
@[simp] theorem startShallTurnOff_txOpen (s : State) : (s.startShallTurnOff).txOpen = s.txOpen := by unfold State.startShallTurnOff; repeat (first | rfl | split)
@[simp] theorem startShallTurnOff_txProto (s : State) : (s.startShallTurnOff).txProto = s.txProto := by unfold State.startShallTurnOff; repeat (first | rfl | split)
@[simp] theorem startShallTurnOff_txCarrier (s : State) : (s.startShallTurnOff).txCarrier = s.txCarrier := by unfold State.startShallTurnOff; repeat (first | rfl | split)
@[simp] theorem startShallTurnOff_level (s : State) : (s.startShallTurnOff).level = s.level := by unfold State.startShallTurnOff; repeat (first | rfl | split)
@[simp] theorem startShallTurnOff_lastPowerChange (s : State) : (s.startShallTurnOff).lastPowerChange = s.lastPowerChange := by unfold State.startShallTurnOff; repeat (first | rfl | split)
@[simp] theorem startShallTurnOff_canTurnOnSince (s : State) : (s.startShallTurnOff).canTurnOnSince = s.canTurnOnSince := by unfold State.startShallTurnOff; repeat (first | rfl | split)
@[simp] theorem startShallTurnOff_rampRemaining (s : State) : (s.startShallTurnOff).rampRemaining = s.rampRemaining := by unfold State.startShallTurnOff; repeat (first | rfl | split)
@[simp] theorem startShallTurnOff_rampNext (s : State) : (s.startShallTurnOff).rampNext = s.rampNext := by unfold State.startShallTurnOff; repeat (first | rfl | split)
@[simp] theorem startShallTurnOff_time (s : State) : (s.startShallTurnOff).time = s.time := by unfold State.startShallTurnOff; repeat (first | rfl | split)
@[simp] theorem startShallTurnOff_txlog (s : State) : (s.startShallTurnOff).txlog = s.txlog := by unfold State.startShallTurnOff; repeat (first | rfl | split)
@[simp] theorem startShallTurnOff_requests (s : State) : (s.startShallTurnOff).requests = s.requests := by unfold State.startShallTurnOff; repeat (first | rfl | split)
@[simp] theorem startShallTurnOff_schedule (s : State) : (s.startShallTurnOff).schedule = s.schedule := by unfold State.startShallTurnOff; repeat (first | rfl | split)
@[simp] theorem startShallTurnOff_openAnswers (s : State) : (s.startShallTurnOff).openAnswers = s.openAnswers := by unfold State.startShallTurnOff; repeat (first | rfl | split)
@[simp] theorem startShallTurnOff_writeAnswers (s : State) : (s.startShallTurnOff).writeAnswers = s.writeAnswers := by unfold State.startShallTurnOff; repeat (first | rfl | split)
@[simp] theorem startShallTurnOff_draws (s : State) : (s.startShallTurnOff).draws = s.draws := by unfold State.startShallTurnOff; repeat (first | rfl | split)

/-! ### togglePower -/
@[simp] theorem togglePower_cfg (s : State) : (s.togglePower).cfg = s.cfg := by unfold State.togglePower; repeat (first | rfl | split)
@[simp] theorem togglePower_isOn (s : State) : (s.togglePower).isOn = !s.isOn := by unfold State.togglePower; split <;> simp_all
@[simp] theorem togglePower_v (s : State) : (s.togglePower).v = s.v := by unfold State.togglePower; repeat (first | rfl | split)
@[simp] theorem togglePower_rampFault (s : State) : (s.togglePower).rampFault = s.rampFault := by unfold State.togglePower; repeat (first | rfl | split)
@[simp] theorem togglePower_rampErr (s : State) : (s.togglePower).rampErr = s.rampErr := by unfold State.togglePower; repeat (first | rfl | split)
@[simp] theorem togglePower_err (s : State) : (s.togglePower).err = s.err := by unfold State.togglePower; repeat (first | rfl | split)
@[simp] theorem togglePower_elen (s : State) : (s.togglePower).elen = s.elen := by unfold State.togglePower; repeat (first | rfl | split)
@[simp] theorem togglePower_eb (s : State) : (s.togglePower).eb = s.eb := by unfold State.togglePower; repeat (first | rfl | split)
@[simp] theorem togglePower_txOpen (s : State) : (s.togglePower).txOpen = s.txOpen := by unfold State.togglePower; repeat (first | rfl | split)
@[simp] theorem togglePower_txProto (s : State) : (s.togglePower).txProto = s.txProto := by unfold State.togglePower; repeat (first | rfl | split)
@[simp] theorem togglePower_txCarrier (s : State) : (s.togglePower).txCarrier = s.txCarrier := by unfold State.togglePower; repeat (first | rfl | split)
@[simp] theorem togglePower_lastPowerChange (s : State) : (s.togglePower).lastPowerChange = s.lastPowerChange := by unfold State.togglePower; repeat (first | rfl | split)
@[simp] theorem togglePower_canTurnOnSince (s : State) : (s.togglePower).canTurnOnSince = s.canTurnOnSince := by unfold State.togglePower; repeat (first | rfl | split)
@[simp] theorem togglePower_shallTurnOffSince (s : State) : (s.togglePower).shallTurnOffSince = s.shallTurnOffSince := by unfold State.togglePower; repeat (first | rfl | split)
@[simp] theorem togglePower_rampRemaining (s : State) : (s.togglePower).rampRemaining = s.rampRemaining := by unfold State.togglePower; repeat (first | rfl | split)
@[simp] theorem togglePower_rampNext (s : State) : (s.togglePower).rampNext = s.rampNext := by unfold State.togglePower; repeat (first | rfl | split)
@[simp] theorem togglePower_time (s : State) : (s.togglePower).time = s.time := by unfold State.togglePower; repeat (first | rfl | split)
@[simp] theorem togglePower_txlog (s : State) : (s.togglePower).txlog = s.txlog := by unfold State.togglePower; repeat (first | rfl | split)
@[simp] theorem togglePower_requests (s : State) : (s.togglePower).requests = s.requests := by unfold State.togglePower; repeat (first | rfl | split)
@[simp] theorem togglePower_schedule (s : State) : (s.togglePower).schedule = s.schedule := by unfold State.togglePower; repeat (first | rfl | split)
@[simp] theorem togglePower_openAnswers (s : State) : (s.togglePower).openAnswers = s.openAnswers := by unfold State.togglePower; repeat (first | rfl | split)
@[simp] theorem togglePower_writeAnswers (s : State) : (s.togglePower).writeAnswers = s.writeAnswers := by unfold State.togglePower; repeat (first | rfl | split)
@[simp] theorem togglePower_draws (s : State) : (s.togglePower).draws = s.draws := by unfold State.togglePower; repeat (first | rfl | split)

/-! ### takeTurn -/
@[simp] theorem takeTurn_cfg (s : State) (t : Turn) : ((s.takeTurn t)).cfg = s.cfg := by unfold State.takeTurn; repeat (first | rfl | split)
@[simp] theorem takeTurn_isOn (s : State) (t : Turn) : ((s.takeTurn t)).isOn = s.isOn := by unfold State.takeTurn; repeat (first | rfl | split)
@[simp] theorem takeTurn_canTurnOn (s : State) (t : Turn) : ((s.takeTurn t)).canTurnOn = s.canTurnOn := by unfold State.takeTurn; repeat (first | rfl | split)
@[simp] theorem takeTurn_shallTurnOff (s : State) (t : Turn) : ((s.takeTurn t)).shallTurnOff = s.shallTurnOff := by unfold State.takeTurn; repeat (first | rfl | split)
@[simp] theorem takeTurn_v (s : State) (t : Turn) : ((s.takeTurn t)).v = s.v := by unfold State.takeTurn; repeat (first | rfl | split)
@[simp] theorem takeTurn_rampFault (s : State) (t : Turn) : ((s.takeTurn t)).rampFault = s.rampFault := by unfold State.takeTurn; repeat (first | rfl | split)
@[simp] theorem takeTurn_rampErr (s : State) (t : Turn) : ((s.takeTurn t)).rampErr = s.rampErr := by unfold State.takeTurn; repeat (first | rfl | split)
@[simp] theorem takeTurn_err (s : State) (t : Turn) : ((s.takeTurn t)).err = s.err := by unfold State.takeTurn; repeat (first | rfl | split)
@[simp] theorem takeTurn_elen (s : State) (t : Turn) : ((s.takeTurn t)).elen = s.elen := by unfold State.takeTurn; repeat (first | rfl | split)
@[simp] theorem takeTurn_eb (s : State) (t : Turn) : ((s.takeTurn t)).eb = s.eb := by unfold State.takeTurn; repeat (first | rfl | split)
@[simp] theorem takeTurn_txOpen (s : State) (t : Turn) : ((s.takeTurn t)).txOpen = s.txOpen := by unfold State.takeTurn; repeat (first | rfl | split)
@[simp] theorem takeTurn_txProto (s : State) (t : Turn) : ((s.takeTurn t)).txProto = s.txProto := by unfold State.takeTurn; repeat (first | rfl | split)
@[simp] theorem takeTurn_txCarrier (s : State) (t : Turn) : ((s.takeTurn t)).txCarrier = s.txCarrier := by unfold State.takeTurn; repeat (first | rfl | split)
@[simp] theorem takeTurn_level (s : State) (t : Turn) : ((s.takeTurn t)).level = s.level := by unfold State.takeTurn; repeat (first | rfl | split)
@[simp] theorem takeTurn_lastPowerChange (s : State) (t : Turn) : ((s.takeTurn t)).lastPowerChange = s.lastPowerChange := by unfold State.takeTurn; repeat (first | rfl | split)
@[simp] theorem takeTurn_canTurnOnSince (s : State) (t : Turn) : ((s.takeTurn t)).canTurnOnSince = s.canTurnOnSince := by unfold State.takeTurn; repeat (first | rfl | split)
@[simp] theorem takeTurn_shallTurnOffSince (s : State) (t : Turn) : ((s.takeTurn t)).shallTurnOffSince = s.shallTurnOffSince := by unfold State.takeTurn; repeat (first | rfl | split)
@[simp] theorem takeTurn_rampRemaining (s : State) (t : Turn) : ((s.takeTurn t)).rampRemaining = s.rampRemaining := by unfold State.takeTurn; repeat (first | rfl | split)
@[simp] theorem takeTurn_rampNext (s : State) (t : Turn) : ((s.takeTurn t)).rampNext = s.rampNext := by unfold State.takeTurn; repeat (first | rfl | split)
@[simp] theorem takeTurn_time (s : State) (t : Turn) : ((s.takeTurn t)).time = s.time := by unfold State.takeTurn; repeat (first | rfl | split)
@[simp] theorem takeTurn_txlog (s : State) (t : Turn) : ((s.takeTurn t)).txlog = s.txlog := by unfold State.takeTurn; repeat (first | rfl | split)
@[simp] theorem takeTurn_requests (s : State) (t : Turn) : ((s.takeTurn t)).requests = s.requests := by unfold State.takeTurn; repeat (first | rfl | split)
@[simp] theorem takeTurn_openAnswers (s : State) (t : Turn) : ((s.takeTurn t)).openAnswers = s.openAnswers := by unfold State.takeTurn; repeat (first | rfl | split)
@[simp] theorem takeTurn_writeAnswers (s : State) (t : Turn) : ((s.takeTurn t)).writeAnswers = s.writeAnswers := by unfold State.takeTurn; repeat (first | rfl | split)

/-! ### sending: everything but EB, ELEN, TXLOG and the draws is left alone -/
@[simp] theorem recordWrite_cfg (p : Proto) (l : List Edge) (w : Nat) (s : State) :
    (recordWrite p l w s).2.cfg = s.cfg := by unfold recordWrite; split <;> rfl
@[simp] theorem sendFrame_cfg (p : Proto) (sc : Scancode) (s : State) : (sendFrame p sc s).2.cfg = s.cfg := by
  unfold sendFrame devWrite; repeat (first | rfl | split | simp)
@[simp] theorem send_cfg (cmd : Command) (s : State) : (send cmd s).2.cfg = s.cfg := by
  unfold send; repeat (first | rfl | split | simp)
@[simp] theorem recordWrite_isOn (p : Proto) (l : List Edge) (w : Nat) (s : State) :
    (recordWrite p l w s).2.isOn = s.isOn := by unfold recordWrite; split <;> rfl
@[simp] theorem sendFrame_isOn (p : Proto) (sc : Scancode) (s : State) : (sendFrame p sc s).2.isOn = s.isOn := by
  unfold sendFrame devWrite; repeat (first | rfl | split | simp)
@[simp] theorem send_isOn (cmd : Command) (s : State) : (send cmd s).2.isOn = s.isOn := by
  unfold send; repeat (first | rfl | split | simp)
@[simp] theorem recordWrite_canTurnOn (p : Proto) (l : List Edge) (w : Nat) (s : State) :
    (recordWrite p l w s).2.canTurnOn = s.canTurnOn := by unfold recordWrite; split <;> rfl
@[simp] theorem sendFrame_canTurnOn (p : Proto) (sc : Scancode) (s : State) : (sendFrame p sc s).2.canTurnOn = s.canTurnOn := by
  unfold sendFrame devWrite; repeat (first | rfl | split | simp)
@[simp] theorem send_canTurnOn (cmd : Command) (s : State) : (send cmd s).2.canTurnOn = s.canTurnOn := by
  unfold send; repeat (first | rfl | split | simp)
@[simp] theorem recordWrite_shallTurnOff (p : Proto) (l : List Edge) (w : Nat) (s : State) :
    (recordWrite p l w s).2.shallTurnOff = s.shallTurnOff := by unfold recordWrite; split <;> rfl
@[simp] theorem sendFrame_shallTurnOff (p : Proto) (sc : Scancode) (s : State) : (sendFrame p sc s).2.shallTurnOff = s.shallTurnOff := by
  unfold sendFrame devWrite; repeat (first | rfl | split | simp)
@[simp] theorem send_shallTurnOff (cmd : Command) (s : State) : (send cmd s).2.shallTurnOff = s.shallTurnOff := by
  unfold send; repeat (first | rfl | split | simp)
@[simp] theorem recordWrite_v (p : Proto) (l : List Edge) (w : Nat) (s : State) :
    (recordWrite p l w s).2.v = s.v := by unfold recordWrite; split <;> rfl
@[simp] theorem sendFrame_v (p : Proto) (sc : Scancode) (s : State) : (sendFrame p sc s).2.v = s.v := by
  unfold sendFrame devWrite; repeat (first | rfl | split | simp)
@[simp] theorem send_v (cmd : Command) (s : State) : (send cmd s).2.v = s.v := by
  unfold send; repeat (first | rfl | split | simp)
@[simp] theorem recordWrite_rampFault (p : Proto) (l : List Edge) (w : Nat) (s : State) :
    (recordWrite p l w s).2.rampFault = s.rampFault := by unfold recordWrite; split <;> rfl
@[simp] theorem sendFrame_rampFault (p : Proto) (sc : Scancode) (s : State) : (sendFrame p sc s).2.rampFault = s.rampFault := by
  unfold sendFrame devWrite; repeat (first | rfl | split | simp)
@[simp] theorem send_rampFault (cmd : Command) (s : State) : (send cmd s).2.rampFault = s.rampFault := by
  unfold send; repeat (first | rfl | split | simp)
@[simp] theorem recordWrite_rampErr (p : Proto) (l : List Edge) (w : Nat) (s : State) :
    (recordWrite p l w s).2.rampErr = s.rampErr := by unfold recordWrite; split <;> rfl
@[simp] theorem sendFrame_rampErr (p : Proto) (sc : Scancode) (s : State) : (sendFrame p sc s).2.rampErr = s.rampErr := by
  unfold sendFrame devWrite; repeat (first | rfl | split | simp)
@[simp] theorem send_rampErr (cmd : Command) (s : State) : (send cmd s).2.rampErr = s.rampErr := by
  unfold send; repeat (first | rfl | split | simp)
@[simp] theorem recordWrite_err (p : Proto) (l : List Edge) (w : Nat) (s : State) :
    (recordWrite p l w s).2.err = s.err := by unfold recordWrite; split <;> rfl
@[simp] theorem sendFrame_err (p : Proto) (sc : Scancode) (s : State) : (sendFrame p sc s).2.err = s.err := by
  unfold sendFrame devWrite; repeat (first | rfl | split | simp)
@[simp] theorem send_err (cmd : Command) (s : State) : (send cmd s).2.err = s.err := by
  unfold send; repeat (first | rfl | split | simp)
@[simp] theorem recordWrite_txOpen (p : Proto) (l : List Edge) (w : Nat) (s : State) :
    (recordWrite p l w s).2.txOpen = s.txOpen := by unfold recordWrite; split <;> rfl
@[simp] theorem sendFrame_txOpen (p : Proto) (sc : Scancode) (s : State) : (sendFrame p sc s).2.txOpen = s.txOpen := by
  unfold sendFrame devWrite; repeat (first | rfl | split | simp)
@[simp] theorem send_txOpen (cmd : Command) (s : State) : (send cmd s).2.txOpen = s.txOpen := by
  unfold send; repeat (first | rfl | split | simp)
@[simp] theorem recordWrite_txProto (p : Proto) (l : List Edge) (w : Nat) (s : State) :
    (recordWrite p l w s).2.txProto = s.txProto := by unfold recordWrite; split <;> rfl
@[simp] theorem sendFrame_txProto (p : Proto) (sc : Scancode) (s : State) : (sendFrame p sc s).2.txProto = s.txProto := by
  unfold sendFrame devWrite; repeat (first | rfl | split | simp)
@[simp] theorem send_txProto (cmd : Command) (s : State) : (send cmd s).2.txProto = s.txProto := by
  unfold send; repeat (first | rfl | split | simp)
@[simp] theorem recordWrite_txCarrier (p : Proto) (l : List Edge) (w : Nat) (s : State) :
    (recordWrite p l w s).2.txCarrier = s.txCarrier := by unfold recordWrite; split <;> rfl
@[simp] theorem sendFrame_txCarrier (p : Proto) (sc : Scancode) (s : State) : (sendFrame p sc s).2.txCarrier = s.txCarrier := by
  unfold sendFrame devWrite; repeat (first | rfl | split | simp)
@[simp] theorem send_txCarrier (cmd : Command) (s : State) : (send cmd s).2.txCarrier = s.txCarrier := by
  unfold send; repeat (first | rfl | split | simp)
@[simp] theorem recordWrite_level (p : Proto) (l : List Edge) (w : Nat) (s : State) :
    (recordWrite p l w s).2.level = s.level := by unfold recordWrite; split <;> rfl
@[simp] theorem sendFrame_level (p : Proto) (sc : Scancode) (s : State) : (sendFrame p sc s).2.level = s.level := by
  unfold sendFrame devWrite; repeat (first | rfl | split | simp)
@[simp] theorem send_level (cmd : Command) (s : State) : (send cmd s).2.level = s.level := by
  unfold send; repeat (first | rfl | split | simp)
@[simp] theorem recordWrite_lastPowerChange (p : Proto) (l : List Edge) (w : Nat) (s : State) :
    (recordWrite p l w s).2.lastPowerChange = s.lastPowerChange := by unfold recordWrite; split <;> rfl
@[simp] theorem sendFrame_lastPowerChange (p : Proto) (sc : Scancode) (s : State) : (sendFrame p sc s).2.lastPowerChange = s.lastPowerChange := by
  unfold sendFrame devWrite; repeat (first | rfl | split | simp)
@[simp] theorem send_lastPowerChange (cmd : Command) (s : State) : (send cmd s).2.lastPowerChange = s.lastPowerChange := by
  unfold send; repeat (first | rfl | split | simp)
@[simp] theorem recordWrite_canTurnOnSince (p : Proto) (l : List Edge) (w : Nat) (s : State) :
    (recordWrite p l w s).2.canTurnOnSince = s.canTurnOnSince := by unfold recordWrite; split <;> rfl
@[simp] theorem sendFrame_canTurnOnSince (p : Proto) (sc : Scancode) (s : State) : (sendFrame p sc s).2.canTurnOnSince = s.canTurnOnSince := by
  unfold sendFrame devWrite; repeat (first | rfl | split | simp)
@[simp] theorem send_canTurnOnSince (cmd : Command) (s : State) : (send cmd s).2.canTurnOnSince = s.canTurnOnSince := by
  unfold send; repeat (first | rfl | split | simp)
@[simp] theorem recordWrite_shallTurnOffSince (p : Proto) (l : List Edge) (w : Nat) (s : State) :
    (recordWrite p l w s).2.shallTurnOffSince = s.shallTurnOffSince := by unfold recordWrite; split <;> rfl
@[simp] theorem sendFrame_shallTurnOffSince (p : Proto) (sc : Scancode) (s : State) : (sendFrame p sc s).2.shallTurnOffSince = s.shallTurnOffSince := by
  unfold sendFrame devWrite; repeat (first | rfl | split | simp)
@[simp] theorem send_shallTurnOffSince (cmd : Command) (s : State) : (send cmd s).2.shallTurnOffSince = s.shallTurnOffSince := by
  unfold send; repeat (first | rfl | split | simp)
@[simp] theorem recordWrite_rampRemaining (p : Proto) (l : List Edge) (w : Nat) (s : State) :
    (recordWrite p l w s).2.rampRemaining = s.rampRemaining := by unfold recordWrite; split <;> rfl
@[simp] theorem sendFrame_rampRemaining (p : Proto) (sc : Scancode) (s : State) : (sendFrame p sc s).2.rampRemaining = s.rampRemaining := by
  unfold sendFrame devWrite; repeat (first | rfl | split | simp)
@[simp] theorem send_rampRemaining (cmd : Command) (s : State) : (send cmd s).2.rampRemaining = s.rampRemaining := by
  unfold send; repeat (first | rfl | split | simp)
@[simp] theorem recordWrite_rampNext (p : Proto) (l : List Edge) (w : Nat) (s : State) :
    (recordWrite p l w s).2.rampNext = s.rampNext := by unfold recordWrite; split <;> rfl
@[simp] theorem sendFrame_rampNext (p : Proto) (sc : Scancode) (s : State) : (sendFrame p sc s).2.rampNext = s.rampNext := by
  unfold sendFrame devWrite; repeat (first | rfl | split | simp)
@[simp] theorem send_rampNext (cmd : Command) (s : State) : (send cmd s).2.rampNext = s.rampNext := by
  unfold send; repeat (first | rfl | split | simp)
@[simp] theorem recordWrite_time (p : Proto) (l : List Edge) (w : Nat) (s : State) :
    (recordWrite p l w s).2.time = s.time := by unfold recordWrite; split <;> rfl
@[simp] theorem sendFrame_time (p : Proto) (sc : Scancode) (s : State) : (sendFrame p sc s).2.time = s.time := by
  unfold sendFrame devWrite; repeat (first | rfl | split | simp)
@[simp] theorem send_time (cmd : Command) (s : State) : (send cmd s).2.time = s.time := by
  unfold send; repeat (first | rfl | split | simp)
@[simp] theorem recordWrite_requests (p : Proto) (l : List Edge) (w : Nat) (s : State) :
    (recordWrite p l w s).2.requests = s.requests := by unfold recordWrite; split <;> rfl
@[simp] theorem sendFrame_requests (p : Proto) (sc : Scancode) (s : State) : (sendFrame p sc s).2.requests = s.requests := by
  unfold sendFrame devWrite; repeat (first | rfl | split | simp)
@[simp] theorem send_requests (cmd : Command) (s : State) : (send cmd s).2.requests = s.requests := by
  unfold send; repeat (first | rfl | split | simp)
@[simp] theorem recordWrite_schedule (p : Proto) (l : List Edge) (w : Nat) (s : State) :
    (recordWrite p l w s).2.schedule = s.schedule := by unfold recordWrite; split <;> rfl
@[simp] theorem sendFrame_schedule (p : Proto) (sc : Scancode) (s : State) : (sendFrame p sc s).2.schedule = s.schedule := by
  unfold sendFrame devWrite; repeat (first | rfl | split | simp)
@[simp] theorem send_schedule (cmd : Command) (s : State) : (send cmd s).2.schedule = s.schedule := by
  unfold send; repeat (first | rfl | split | simp)
@[simp] theorem recordWrite_openAnswers (p : Proto) (l : List Edge) (w : Nat) (s : State) :
    (recordWrite p l w s).2.openAnswers = s.openAnswers := by unfold recordWrite; split <;> rfl
@[simp] theorem sendFrame_openAnswers (p : Proto) (sc : Scancode) (s : State) : (sendFrame p sc s).2.openAnswers = s.openAnswers := by
  unfold sendFrame devWrite; repeat (first | rfl | split | simp)
@[simp] theorem send_openAnswers (cmd : Command) (s : State) : (send cmd s).2.openAnswers = s.openAnswers := by
  unfold send; repeat (first | rfl | split | simp)

end Sys2Proof.Machine
end

