-- ==== Sys2Proof/Laws/Ops.lean ====
section
/-!
SUPPORT. One inversion lemma per shared operation: everything it can do. Proofs cite these and do not unfold.
-/

namespace Sys2Proof.Machine

/-! ### Sending -/

/-- The state in which the frame of `(p, sc)` has been stored and the device has answered. -/
def State.frameStored (s : State) (p : Proto) (sc : Scancode) : State :=
  (s.storeFrame (encodeFrame s.cfg p sc)).writeDrawn

/-- What SendFrame can do: refuse the scancode, refuse the length, send the whole frame, or end in a short write. -/
theorem sendFrame_cases (p : Proto) (sc : Scancode) (s : State) :
    (isValid s.cfg p sc = false ∧ sendFrame p sc s = (.invalidScancode, s)) ∨
    (isValid s.cfg p sc = true ∧ tooLong s.cfg p (encodeFrame s.cfg p sc) = true ∧
      sendFrame p sc s = (.noEncoding, s)) ∨
    (isValid s.cfg p sc = true ∧ tooLong s.cfg p (encodeFrame s.cfg p sc) = false ∧
      s.nextWrite = 4 * frameLength s.cfg.layout p ∧
      sendFrame p sc s = (.ok, (s.frameStored p sc).log (.frame s.time p (encodeFrame s.cfg p sc)))) ∨
    (isValid s.cfg p sc = true ∧ tooLong s.cfg p (encodeFrame s.cfg p sc) = false ∧
      s.nextWrite ≠ 4 * frameLength s.cfg.layout p ∧
      sendFrame p sc s =
        (.writeError, (s.frameStored p sc).log (.short s.time p (encodeFrame s.cfg p sc) s.nextWrite))) := by
  unfold sendFrame devWrite recordWrite
  have hw : (s.storeFrame (encodeFrame s.cfg p sc)).nextWrite = s.nextWrite := rfl
  rw [hw]
  cases h : isValid s.cfg p sc <;> cases h' : tooLong s.cfg p (encodeFrame s.cfg p sc) <;> simp
  by_cases h2 : s.nextWrite = 4 * frameLength s.cfg.layout p <;> simp [h2, State.frameStored, encodeFrame_length]

/-- What Send can do: refuse for want of a handle, refuse for another protocol's handle, or what SendFrame does. -/
theorem send_cases (cmd : Command) (s : State) :
    (s.txOpen = false ∧ send cmd s = (.notOpen, s)) ∨
    (s.txOpen = true ∧ s.txProto ≠ s.cfg.hpcProto ∧ send cmd s = (.protocolMismatch, s)) ∨
    (s.txOpen = true ∧ s.txProto = s.cfg.hpcProto ∧
      send cmd s = sendFrame s.cfg.hpcProto (s.cfg.cmdScancode cmd) s) := by
  unfold send
  cases h : s.txOpen <;> simp
  by_cases h2 : s.txProto = s.cfg.hpcProto <;> simp [h2]

/-- A predicate that storing a frame within the bound check, drawing an answer and logging keep is kept by a send. -/
theorem sendFrame_keeps {P : State → Prop}
    (hstore : ∀ s p sc, tooLong s.cfg p (encodeFrame s.cfg p sc) = false → P s → P (s.frameStored p sc))
    (hlog : ∀ s e, P s → P (s.log e)) (p : Proto) (sc : Scancode) {s : State} (hs : P s) :
    P (sendFrame p sc s).2 := by
  obtain ⟨-, h⟩ | ⟨-, -, h⟩ | ⟨-, hl, -, h⟩ | ⟨-, hl, -, h⟩ := sendFrame_cases p sc s
  · rw [h]; exact hs
  · rw [h]; exact hs
  · rw [h]; exact hlog _ _ (hstore _ _ _ hl hs)
  · rw [h]; exact hlog _ _ (hstore _ _ _ hl hs)

theorem send_keeps {P : State → Prop}
    (hstore : ∀ s p sc, tooLong s.cfg p (encodeFrame s.cfg p sc) = false → P s → P (s.frameStored p sc))
    (hlog : ∀ s e, P s → P (s.log e)) (cmd : Command) {s : State} (hs : P s) : P (send cmd s).2 := by
  obtain ⟨-, h⟩ | ⟨-, -, h⟩ | ⟨-, -, h⟩ := send_cases cmd s
  · rw [h]; exact hs
  · rw [h]; exact hs
  · rw [h]; exact sendFrame_keeps hstore hlog _ _ hs

/-- A send with a transition after it: the device took the frame and the transition is made, or the code is in ERR. -/
theorem sendThen_cases (cmd : Command) (k : State → State) (s : State) :
    ((send cmd s).1 = .ok ∧ sendThen cmd k s = (k (send cmd s).2).done) ∨
    ((send cmd s).1 ≠ .ok ∧ sendThen cmd k s = (send cmd s).2.fail (send cmd s).1) := by
  unfold sendThen
  by_cases h : (send cmd s).1 = .ok <;> simp [h]

/-! ### The handle -/

/-- What TXOPEN can do: refuse, or the device steps under the answers drawn. -/
theorem openHandle_cases (p : Proto) (s : State) :
    (s.txOpen = true ∧ openHandle p s = s.fail .alreadyOpen) ∨
    (s.txOpen = false ∧ openHandle p s = openDevice p s.nextOpen s.openDrawn) := by
  unfold openHandle; cases s.txOpen <;> simp

/-- The device steps of TXOPEN: success, or one of six failures; only a success touches the handle. -/
theorem openDevice_cases (p : Proto) (o : OpenAnswers) (s : State) :
    (∃ l, openDevice p o s =
      ((({ s with txlog := s.txlog ++ l } : State).bindHandle p).done) ∧
      l = [.opened s.time, .carrier s.time (s.cfg.row p).carrierHz, .modePulse s.time]) ∨
    (∃ l e, openDevice p o s = ({ s with txlog := s.txlog ++ l } : State).fail e ∧ e ≠ .ok ∧
      ∀ ev ∈ l, ev = .opened s.time ∨ ev = .carrier s.time (s.cfg.row p).carrierHz ∨ ev = .closed s.time) := by
  unfold openDevice
  rcases o with ⟨_ | _, b, c, d, e, f⟩
  · exact .inr ⟨[], _, by simp; rfl, by simp, by simp⟩
  rcases b with _ | _
  · exact .inr ⟨[.opened s.time, .closed s.time], .openCannotQueryFeatures,
      by simp [State.abandonOpen, State.log], by simp, by simp⟩
  rcases c with _ | _
  · exact .inr ⟨[.opened s.time, .closed s.time], .openNoRawSend,
      by simp [State.abandonOpen, State.log], by simp, by simp⟩
  rcases d with _ | _
  · exact .inr ⟨[.opened s.time, .closed s.time], .openNoSetCarrier,
      by simp [State.abandonOpen, State.log], by simp, by simp⟩
  rcases e with _ | _
  · exact .inr ⟨[.opened s.time, .closed s.time], .openCarrierRejected,
      by simp [State.abandonOpen, State.log], by simp, by simp⟩
  rcases f with _ | _
  · exact .inr ⟨[.opened s.time, .carrier s.time (s.cfg.row p).carrierHz, .closed s.time], .openSendModeFailed,
      by simp [State.abandonOpen, State.log], by simp, by simp⟩
  · exact .inl ⟨_, by simp [State.log], rfl⟩

theorem closeHandle_cases (s : State) :
    (s.txOpen = true ∧ closeHandle s = (s.dropHandle.log (.closed s.time)).done) ∨
    (s.txOpen = false ∧ closeHandle s = s.fail .notOpen) := by
  unfold closeHandle; cases s.txOpen <;> simp

/-! ### The controller -/

theorem requestLevel_cases (g : Level) (s : State) :
    (requestAccepted g s = true ∧ requestLevel g s = s.armRamp g) ∨
    (requestAccepted g s = false ∧ requestLevel g s = s) := by
  unfold requestLevel; cases requestAccepted g s <;> simp

/-- What the Off branch of UPDATE can do: reset the timer, let it run, or fire it. -/
theorem offBranch_cases (a : Int) (s : State) :
    (a ≤ s.cfg.lowThreshold ∧ offBranch a s = s.clearCanTurnOn.done) ∨
    (s.cfg.lowThreshold < a ∧ elapsed s.time s.startCanTurnOn.canTurnOnSince s.cfg.tOn = false ∧
      offBranch a s = s.startCanTurnOn.done) ∨
    (s.cfg.lowThreshold < a ∧ elapsed s.time s.startCanTurnOn.canTurnOnSince s.cfg.tOn = true ∧
      offBranch a s = sendThen .powerToggle State.turnOn s.startCanTurnOn) := by
  unfold offBranch
  by_cases h : s.cfg.lowThreshold < a
  · cases h' : elapsed s.time s.startCanTurnOn.canTurnOnSince s.cfg.tOn <;> simp [h, h']
  · simp [h]; omega

/-- What the off timer of UPDATE can do: be reset, run, or fire. -/
theorem offTimer_cases (a : Int) (s : State) :
    (s.cfg.lowThreshold < a ∧ offTimer a s = s.clearShallTurnOff.done) ∨
    (a ≤ s.cfg.lowThreshold ∧ elapsed s.time s.startShallTurnOff.shallTurnOffSince s.cfg.tOff = false ∧
      offTimer a s = s.startShallTurnOff.done) ∨
    (a ≤ s.cfg.lowThreshold ∧ elapsed s.time s.startShallTurnOff.shallTurnOffSince s.cfg.tOff = true ∧
      offTimer a s = sendThen .powerToggle State.turnOff s.startShallTurnOff) := by
  unfold offTimer
  by_cases h : s.cfg.lowThreshold < a
  · simp [h]
  · have h2 : a ≤ s.cfg.lowThreshold := by omega
    cases h' : elapsed s.time s.startShallTurnOff.shallTurnOffSince s.cfg.tOff <;> simp [h, h', h2]

theorem rampPress_cases (s : State) :
    ((send .inverterPower s).1 = .ok ∧ rampPress s = (send .inverterPower s).2.stepLevel.pressDone) ∨
    ((send .inverterPower s).1 ≠ .ok ∧
      rampPress s = ((send .inverterPower s).2.rampFail (send .inverterPower s).1).pressDone) := by
  unfold rampPress
  by_cases h : (send .inverterPower s).1 = .ok <;> simp [h]

/-! ### What a host operation can do -/

/-- The effects of the host operations on the state, by the shared operation that makes them. -/
inductive HostEffect (s : State) : State → Prop where
  | valid (p : Proto) (sc : Scancode) : HostEffect s (validOp p sc s)
  | encode (p : Proto) (sc : Scancode) : HostEffect s (encodeOp p sc s)
  | txopen (p : Proto) : HostEffect s (openHandle p s)
  | txsend (p : Proto) (sc : Scancode) : HostEffect s (txsendOp p sc s)
  | illegal : HostEffect s s.illegal
  | waits (h : rampInFlight s = true) : HostEffect s s
  | txclose (h : rampInFlight s = false) : HostEffect s (closeHandle s)
  | update (a : Int) (h : joinNeeded a s = false) : HostEffect s (updateBody a s)
  | toggle : HostEffect s (sendThen .powerToggle State.togglePower s)
  | temperature (cmd : Command) (h : cmd = .tempDown ∨ cmd = .tempUp) : HostEffect s (sendThen cmd id s)

theorem joinNeeded_rampInFlight {a : Int} {s : State} (h : joinNeeded a s = true) : rampInFlight s = true := by
  simp only [joinNeeded, Bool.and_eq_true] at h; exact h.2

/-- Everything exec can do when it answers a next state. -/
theorem exec_effect {i : Instr} {s t : State} (h : exec i s = .next t) : HostEffect s t := by
  cases i with
  | validJvc sc => cases h; exact .valid _ _
  | validSony12 sc => cases h; exact .valid _ _
  | validSony15 sc => cases h; exact .valid _ _
  | validSony20 sc => cases h; exact .valid _ _
  | validNec sc => cases h; exact .valid _ _
  | validNecx sc => cases h; exact .valid _ _
  | validNec32 sc => cases h; exact .valid _ _
  | validSanyo sc => cases h; exact .valid _ _
  | validSharp sc => cases h; exact .valid _ _
  | encodeJvc sc => cases h; exact .encode _ _
  | encodeSony12 sc => cases h; exact .encode _ _
  | encodeSony15 sc => cases h; exact .encode _ _
  | encodeSony20 sc => cases h; exact .encode _ _
  | encodeNec sc => cases h; exact .encode _ _
  | encodeNecx sc => cases h; exact .encode _ _
  | encodeNec32 sc => cases h; exact .encode _ _
  | encodeSanyo sc => cases h; exact .encode _ _
  | encodeSharp sc => cases h; exact .encode _ _
  | txopen sel =>
    simp only [exec, execTxopen] at h
    split at h <;> cases h
    · exact .txopen _
    · exact .illegal
  | txsend sel sc =>
    simp only [exec, execTxsend] at h
    split at h <;> cases h
    · exact .txsend _ _
    · exact .illegal
  | txclose =>
    simp only [exec, execTxclose] at h
    cases hh : held .txclose s <;> simp only [hh] at h <;> cases h
    · exact .txclose hh
    · exact .waits hh
  | update c p =>
    simp only [exec, execUpdate] at h
    cases hh : held (.update c p) s <;> simp only [hh] at h <;> cases h
    · exact .update _ hh
    · exact .waits (joinNeeded_rampInFlight hh)
  | pressPowerToggle => cases h; exact .toggle
  | pressTempDown => cases h; exact .temperature _ (.inl rfl)
  | pressTempUp => cases h; exact .temperature _ (.inr rfl)

/-! ### What a step can do -/

/-- The effects of one step: a refused request, a host operation that is not held, a due press, or a tick. -/
inductive StepEffect (s : State) : State → Prop where
  | illegal (w : Request) (rest : List Request) (e : DecodeError) (hq : s.requests = w :: rest)
      (hd : decode w = .error e) : StepEffect s (s.takeTurn .host).dropRequest.illegal
  | operation (w : Request) (rest : List Request) (i : Instr) (t : State) (hq : s.requests = w :: rest)
      (hd : decode w = .ok i) (hh : held i s = false) (he : exec i (s.takeTurn .host).dropRequest = .next t) :
      StepEffect s t
  | press (hp : pressDue s = true) : StepEffect s (rampPress (s.takeTurn .internal))
  | tick (ht : tickReady s = true) : StepEffect s (tick (s.takeTurn .internal))

theorem hostReady_cases {s : State} (h : hostReady s = true) :
    ∃ w rest, s.requests = w :: rest ∧
      ((∃ e, decode w = .error e) ∨ ∃ i, decode w = .ok i ∧ held i s = false) := by
  unfold hostReady at h
  split at h
  · cases h
  · rename_i w rest hq
    refine ⟨w, rest, hq, ?_⟩
    split at h
    · exact .inr ⟨_, ‹_›, by simpa using h⟩
    · exact .inl ⟨_, ‹_›⟩

theorem nextTurn_host {s : State} (h : nextTurn s = .host) : hostReady s = true := by
  unfold nextTurn at h
  split at h
  · assumption
  · assumption
  · cases h

@[simp] theorem pressDue_takeTurn (s : State) (t : Turn) : pressDue (s.takeTurn t) = pressDue s := by
  simp [pressDue, rampInFlight]

@[simp] theorem tickReady_takeTurn (s : State) (t : Turn) : tickReady (s.takeTurn t) = tickReady s := by
  simp [tickReady]

/-- Everything a step can do when it answers a next state. -/
theorem step_effect {s t : State} (h : step s = .next t) : StepEffect s t := by
  simp only [step, runTurn] at h
  split at h
  · rename_i hn
    obtain ⟨w, rest, hq, hc⟩ := hostReady_cases (nextTurn_host hn)
    have hq' : (s.takeTurn .host).requests = w :: rest := by simpa using hq
    simp only [runRequest, hq'] at h
    obtain ⟨e, hd⟩ | ⟨i, hd, hh⟩ := hc
    · simp only [hd] at h; cases h; exact .illegal w rest e hq hd
    · simp only [hd] at h; exact .operation w rest i t hq hd hh h
  · simp only [runInternal] at h
    split at h
    · rename_i hp
      cases h; exact .press (by simpa using hp)
    · split at h
      · rename_i ht
        cases h; exact .tick (by simpa using ht)
      · cases h

end Sys2Proof.Machine
end

