-- ==== Sys2Proof/Laws/Buffer.lean ====
section
/-!
SUPPORT. The machine's one memory is the edge buffer: its form is kept by every operation that writes it, and a stored
frame is read back element by element (10_state.md R29, R30; 20_memory.md R61).
-/

namespace Sys2Proof.Machine

/-- The buffer is in its form after reset, under any configuration. -/
theorem resetWith_bufferOk (c : Config) : (State.resetWith c).BufferOk := ⟨rfl, Nat.zero_le _⟩

/-- Storing a frame within the bound check puts the buffer in its form, whatever it held. -/
theorem storeFrame_bufferOk {s : State} {p : Proto} {edges : List Edge} (h : tooLong s.cfg p edges = false) :
    (s.storeFrame edges).BufferOk := by
  have e : (s.storeFrame edges).elen.toNat = edges.length := by
    simp only [State.storeFrame, BitVec.toNat_ofNat]
    exact Nat.mod_eq_of_lt (length_lt_of_not_tooLong h)
  exact ⟨e.symm, e.symm ▸ (tooLong_eq_false.mp h).2⟩

/-- The form depends on EB, ELEN and the capacity alone. -/
theorem bufferOk_congr {s t : State} (h : s.BufferOk) (he : t.eb = s.eb) (hl : t.elen = s.elen) (hc : t.cfg = s.cfg) :
    t.BufferOk :=
  ⟨by rw [he, hl]; exact h.counted, by rw [hl, hc]; exact h.fits⟩

theorem frameStored_bufferOk {s : State} {p : Proto} {sc : Scancode}
    (h : tooLong s.cfg p (encodeFrame s.cfg p sc) = false) : (s.frameStored p sc).BufferOk :=
  bufferOk_congr (storeFrame_bufferOk h) rfl rfl rfl

/-- ENCODE keeps the buffer's form. -/
theorem encodeOp_bufferOk (p : Proto) (sc : Scancode) {s : State} (h : s.BufferOk) : (encodeOp p sc s).BufferOk := by
  unfold encodeOp
  split
  · exact bufferOk_congr h rfl rfl rfl
  · split
    · exact bufferOk_congr h rfl rfl rfl
    · rename_i hl
      exact bufferOk_congr (storeFrame_bufferOk (Bool.eq_false_iff.mpr hl)) rfl rfl rfl

/-- A send keeps the buffer's form, whatever its outcome. -/
theorem sendFrame_bufferOk (p : Proto) (sc : Scancode) {s : State} (h : s.BufferOk) : (sendFrame p sc s).2.BufferOk :=
  sendFrame_keeps (fun _ _ _ hl _ => frameStored_bufferOk hl) (fun _ _ h => bufferOk_congr h rfl rfl rfl) p sc h

/-- A controller's send keeps the buffer's form, whatever its outcome. -/
theorem send_bufferOk (cmd : Command) {s : State} (h : s.BufferOk) : (send cmd s).2.BufferOk :=
  send_keeps (fun _ _ _ hl _ => frameStored_bufferOk hl) (fun _ _ h => bufferOk_congr h rfl rfl rfl) cmd h

/-- An element of a stored frame is read back. -/
theorem readEdge_storeFrame (s : State) (edges : List Edge) (i : Nat) (h : i < edges.length) :
    readEdge (s.storeFrame edges) i = edges[i] := by
  simp [readEdge, State.storeFrame, h]

end Sys2Proof.Machine
end

