-- ==== Sys2Proof/Laws/Requests.lean ====
section
/-!
SUPPORT. The fields of a request word: reading an assembled word gives its fields, and every word is assembled from its
fields.
-/

namespace Sys2Proof

@[simp] theorem opField_assemble (op sel : BitVec 4) (a b : Word) : opField (assemble op sel a b) = op := by
  unfold opField assemble; ext i hi; simp; grind

@[simp] theorem selField_assemble (op sel : BitVec 4) (a b : Word) : selField (assemble op sel a b) = sel := by
  unfold selField assemble; ext i hi; simp; grind

@[simp] theorem aField_assemble (op sel : BitVec 4) (a b : Word) : aField (assemble op sel a b) = a := by
  unfold aField assemble; ext i hi; simp; grind

@[simp] theorem bField_assemble (op sel : BitVec 4) (a b : Word) : bField (assemble op sel a b) = b := by
  unfold bField assemble; ext i hi; simp; grind

theorem assemble_fields (w : Request) : assemble (opField w) (selField w) (aField w) (bField w) = w := by
  unfold opField selField aField bField assemble; ext i hi; simp; grind

theorem assemble_and (op sel op' sel' : BitVec 4) (a b a' b' : Word) :
    assemble op sel a b &&& assemble op' sel' a' b' = assemble (op &&& op') (sel &&& sel') (a &&& a') (b &&& b') := by
  unfold assemble; ext i hi; simp only [BitVec.getElem_and]; simp; grind

theorem assemble_inj {op sel op' sel' : BitVec 4} {a b a' b' : Word} :
    assemble op sel a b = assemble op' sel' a' b' ↔ op = op' ∧ sel = sel' ∧ a = a' ∧ b = b' := by
  constructor
  · intro h
    refine ⟨?_, ?_, ?_, ?_⟩
    · simpa using congrArg opField h
    · simpa using congrArg selField h
    · simpa using congrArg aField h
    · simpa using congrArg bField h
  · rintro ⟨rfl, rfl, rfl, rfl⟩; rfl

/-- The mask of a table row that fixes OP and SEL. -/
theorem assemble_and_opSel (op sel : BitVec 4) (a b : Word) :
    assemble op sel a b &&& 0xFF0000000000000000#72 = assemble op sel 0 0 := by
  have e : 0xFF0000000000000000#72 = assemble (BitVec.allOnes 4) (BitVec.allOnes 4) 0 0 := by decide
  rw [e, assemble_and, BitVec.and_allOnes, BitVec.and_allOnes]; simp

/-- The mask of a table row that fixes OP alone. -/
theorem assemble_and_op (op sel : BitVec 4) (a b : Word) :
    assemble op sel a b &&& 0xF00000000000000000#72 = assemble op 0 0 0 := by
  have e : 0xF00000000000000000#72 = assemble (BitVec.allOnes 4) 0 0 0 := by decide
  rw [e, assemble_and, BitVec.and_allOnes]; simp

/-- The read mask of the formats that read OP, SEL and A. -/
theorem assemble_and_opSelA (op sel : BitVec 4) (a b : Word) :
    assemble op sel a b &&& 0xFFFFFFFFFF00000000#72 = assemble op sel a 0 := by
  have e : 0xFFFFFFFFFF00000000#72 = assemble (BitVec.allOnes 4) (BitVec.allOnes 4) (BitVec.allOnes 32) 0 := by decide
  rw [e, assemble_and, BitVec.and_allOnes, BitVec.and_allOnes, BitVec.and_allOnes]; simp

/-- A protocol id of 0 to 8 names a protocol, and it is that protocol's id. -/
theorem ofSel_of_le {sel : BitVec 4} (h : selNamesProto sel = true) : ∃ p, Proto.ofSel sel = some p ∧ p.id = sel := by
  revert h; revert sel; decide

@[simp] theorem ofSel_id (p : Proto) : Proto.ofSel p.id = some p := by cases p <;> rfl

theorem ofSel_eq_some {sel : BitVec 4} {p : Proto} (h : Proto.ofSel sel = some p) : sel = p.id := by
  revert h; revert p sel; decide

/-- N_PROTO counts the protocols (00_scope.md section 4.1). -/
theorem proto_all_length : Proto.all.length = nProto := rfl

/-- N_CMD counts the commands (00_scope.md section 4.1). -/
theorem command_all_length : Command.all.length = nCmd := rfl

/-- The protocol of an id is the entry of the list of protocols at it (R93). -/
theorem ofSel_eq_all (sel : BitVec 4) : Proto.ofSel sel = Proto.all[sel.toNat]? := by revert sel; decide

theorem ofSel_eq_none {sel : BitVec 4} : Proto.ofSel sel = none ↔ 9 ≤ sel.toNat := by
  revert sel; decide

end Sys2Proof
end

