-- ==== Sys2Proof/Laws/PerInstr.lean ====
section
/-!
SUPPORT. The per-instruction family SelectsItsRow: the word the encoder writes for an instruction selects that
instruction's row of the opcode table (30_encoding.md R96).
-/

namespace Sys2Proof.Laws.SelectsItsRow

/-- The encoded word of `i` has the row's fixed bits. -/
def Statement (i : Instr) : Prop := i.row.selects (encode i) = true

/-- A row that fixes OP and SEL selects every word assembled from them. -/
theorem selects_opSel (op sel : BitVec 4) (a b : Word) (r : Request) (h : assemble op sel 0 0 = r) :
    OpRow.selects ⟨r, 0xFF0000000000000000#72⟩ (assemble op sel a b) = true := by
  subst h
  simp only [OpRow.selects, assemble_and_opSel, beq_self_eq_true]

/-- A row that fixes OP alone selects every word assembled from it. -/
theorem selects_op (op sel : BitVec 4) (a b : Word) (r : Request) (h : assemble op 0 0 0 = r) :
    OpRow.selects ⟨r, 0xF00000000000000000#72⟩ (assemble op sel a b) = true := by
  subst h
  simp only [OpRow.selects, assemble_and_op, beq_self_eq_true]

theorem validJvc (scancode : Scancode) : Statement (.validJvc scancode) := selects_opSel _ _ _ _ _ (by decide)
theorem validSony12 (scancode : Scancode) : Statement (.validSony12 scancode) := selects_opSel _ _ _ _ _ (by decide)
theorem validSony15 (scancode : Scancode) : Statement (.validSony15 scancode) := selects_opSel _ _ _ _ _ (by decide)
theorem validSony20 (scancode : Scancode) : Statement (.validSony20 scancode) := selects_opSel _ _ _ _ _ (by decide)
theorem validNec (scancode : Scancode) : Statement (.validNec scancode) := selects_opSel _ _ _ _ _ (by decide)
theorem validNecx (scancode : Scancode) : Statement (.validNecx scancode) := selects_opSel _ _ _ _ _ (by decide)
theorem validNec32 (scancode : Scancode) : Statement (.validNec32 scancode) := selects_opSel _ _ _ _ _ (by decide)
theorem validSanyo (scancode : Scancode) : Statement (.validSanyo scancode) := selects_opSel _ _ _ _ _ (by decide)
theorem validSharp (scancode : Scancode) : Statement (.validSharp scancode) := selects_opSel _ _ _ _ _ (by decide)
theorem encodeJvc (scancode : Scancode) : Statement (.encodeJvc scancode) := selects_opSel _ _ _ _ _ (by decide)
theorem encodeSony12 (scancode : Scancode) : Statement (.encodeSony12 scancode) := selects_opSel _ _ _ _ _ (by decide)
theorem encodeSony15 (scancode : Scancode) : Statement (.encodeSony15 scancode) := selects_opSel _ _ _ _ _ (by decide)
theorem encodeSony20 (scancode : Scancode) : Statement (.encodeSony20 scancode) := selects_opSel _ _ _ _ _ (by decide)
theorem encodeNec (scancode : Scancode) : Statement (.encodeNec scancode) := selects_opSel _ _ _ _ _ (by decide)
theorem encodeNecx (scancode : Scancode) : Statement (.encodeNecx scancode) := selects_opSel _ _ _ _ _ (by decide)
theorem encodeNec32 (scancode : Scancode) : Statement (.encodeNec32 scancode) := selects_opSel _ _ _ _ _ (by decide)
theorem encodeSanyo (scancode : Scancode) : Statement (.encodeSanyo scancode) := selects_opSel _ _ _ _ _ (by decide)
theorem encodeSharp (scancode : Scancode) : Statement (.encodeSharp scancode) := selects_opSel _ _ _ _ _ (by decide)
theorem txopen (sel : BitVec 4) : Statement (.txopen sel) := selects_op _ _ _ _ _ (by decide)
theorem txsend (sel : BitVec 4) (scancode : Scancode) : Statement (.txsend sel scancode) := selects_op _ _ _ _ _ (by decide)
theorem txclose : Statement .txclose := selects_opSel _ _ _ _ _ (by decide)
theorem update (consumed produced : Power) : Statement (.update consumed produced) := selects_opSel _ _ _ _ _ (by decide)
theorem pressPowerToggle : Statement .pressPowerToggle := selects_opSel _ _ _ _ _ (by decide)
theorem pressTempDown : Statement .pressTempDown := selects_opSel _ _ _ _ _ (by decide)
theorem pressTempUp : Statement .pressTempUp := selects_opSel _ _ _ _ _ (by decide)

end Sys2Proof.Laws.SelectsItsRow
end

