-- ==== Sys2Proof/Laws/Run.lean ====
section
/-!
SUPPORT. Runs of the machine through Host/Core.lean: a run of k + 1 steps is a step and a run of k.
-/

namespace Sys2Proof.Machine

/-- A step, then a run. -/
theorem core_run_succ {s s' t : State} {k : Nat} (h : step s = .next s')
    (hr : Host.Core.run Sys2Proof.core k s' = .next t) : Host.Core.run Sys2Proof.core (k + 1) s = .next t := by
  refine (Host.Core.run.eq_2 Sys2Proof.core s k).trans ?_
  have hs : Sys2Proof.core.step s = .next s' := h
  rw [hs]; exact hr

/-- One step is a run of one. -/
theorem core_run_one {s t : State} (h : step s = .next t) : Host.Core.run Sys2Proof.core 1 s = .next t :=
  core_run_succ h rfl

end Sys2Proof.Machine
end

