-- ==== Sys2Proof/Tests/Slice0.lean ====
section
/-!
SUPPORT. The model's own tests: ill-formed terms refused, words written out from the spec's encoding, the vectors of
spec/95_test_vectors.md under its configuration TC1, and a witness for the hypotheses of every statement.
-/

namespace Sys2Proof.Tests

open Sys2Proof Sys2Proof.Machine Sys2Proof.Claims

/-! ### Small states (95_test_vectors.md, TC1) -/

/-- TC1: the defaults, with the scancodes 1 to 4. -/
def tc1 : Config := Config.withScancodes fun
  | .powerToggle => 0x0001#32
  | .tempDown => 0x0002#32
  | .tempUp => 0x0003#32
  | .inverterPower => 0x0004#32

/-- Reset under TC1. -/
def idle : State := State.resetWith tc1

/-- A handle open for NEC, and a device that takes three NEC frames. -/
def openNec : State :=
  { idle with txOpen := true, txProto := .nec, txCarrier := 38000#32, writeAnswers := [268, 268, 268] }

/-- The handle open for NEC, the controller On at level `l` at TIME `t`. -/
def onAt (l : Level) (t : Nat) : State := { openNec with isOn := true, level := l, time := t }

/-- A device that refuses nothing. -/
def allTrue : OpenAnswers := ⟨true, true, true, true, true, true⟩

/-- A ramp of three presses, the next due at 1000. -/
def ramping : State :=
  { onAt 0 0 with rampRemaining := 3, rampNext := 1000, lastPowerChange := 0 }

/-- The state an outcome answers. -/
def nextOf : Host.Outcome State Fault Refusal → Option State
  | .next t => some t
  | .fault _ => none
  | .refused _ => none

/-- EB, ELEN and ERR, as the vectors give them. -/
def ebOf (o : Host.Outcome State Fault Refusal) : Option (List Nat × Nat × Nat) :=
  (nextOf o).map fun t => (t.eb.map BitVec.toNat, t.elen.toNat, t.err.code.toNat)

/-- The bits of one field of a NEC or SANYO frame as their edges (95_test_vectors.md section 2.3). -/
def necBits (bits : List Nat) : List Nat := bits.flatMap fun b => if b = 0 then [563, 563] else [563, 1688]

/-- The bits of one field of a JVC frame as their edges (section 2.4). -/
def jvcBits (bits : List Nat) : List Nat := bits.flatMap fun b => if b = 0 then [525, 525] else [525, 1575]

/-- The bits of one field of a SHARP frame as their edges (section 2.6). -/
def sharpBits (bits : List Nat) : List Nat := bits.flatMap fun b => if b = 0 then [320, 1000] else [320, 2000]

/-- The bits of one field of a SONY frame as their edges (section 2.7). -/
def sonyBits (bits : List Nat) : List Nat := bits.flatMap fun b => if b = 0 then [600, 600] else [1200, 600]

/-! ### Well-formed terms (R93, R98) -/

theorem test_txopen_sel_out_of_range : (Instr.txopen 9#4).wellFormed = false ∧ (Instr.txopen 15#4).wellFormed = false := by
  decide
theorem test_txsend_sel_out_of_range :
    (Instr.txsend 9#4 0#32).wellFormed = false ∧ (Instr.txsend 15#4 0#32).wellFormed = false := by decide
theorem test_sel_in_range : (Instr.txopen 8#4).wellFormed = true ∧ (Instr.txsend 0#4 0#32).wellFormed = true := by decide

/-! ### Decoding: OP, SEL, A, B written out (R90 to R100) -/

theorem test_decode_validJvc : decode 0x10_0000FFFF_00000000#72 = .ok (.validJvc 0xFFFF#32) := by decide
theorem test_decode_validSony12 : decode 0x11_00010015_00000000#72 = .ok (.validSony12 0x010015#32) := by decide
theorem test_decode_validSony15 : decode 0x12_00FF007F_00000000#72 = .ok (.validSony15 0xFF007F#32) := by decide
theorem test_decode_validSony20 : decode 0x13_001FFF7F_00000000#72 = .ok (.validSony20 0x1FFF7F#32) := by decide
theorem test_decode_validNec : decode 0x14_000000FF_00000000#72 = .ok (.validNec 0xFF#32) := by decide
theorem test_decode_validNecx : decode 0x15_0012ED34_00000000#72 = .ok (.validNecx 0x12ED34#32) := by decide
theorem test_decode_validNec32 : decode 0x16_12EC3456_00000000#72 = .ok (.validNec32 0x12EC3456#32) := by decide
theorem test_decode_validSanyo : decode 0x17_00200000_00000000#72 = .ok (.validSanyo 0x200000#32) := by decide
theorem test_decode_validSharp : decode 0x18_00002000_00000000#72 = .ok (.validSharp 0x2000#32) := by decide
theorem test_decode_encodeJvc : decode 0x20_00000312_00000000#72 = .ok (.encodeJvc 0x0312#32) := by decide
theorem test_decode_encodeSony12 : decode 0x21_00000080_00000000#72 = .ok (.encodeSony12 0x80#32) := by decide
theorem test_decode_encodeSony15 : decode 0x22_00970015_00000000#72 = .ok (.encodeSony15 0x970015#32) := by decide
theorem test_decode_encodeSony20 : decode 0x23_001A2B15_00000000#72 = .ok (.encodeSony20 0x1A2B15#32) := by decide
/-- V-DEC-8: B is ignored. -/
theorem test_decode_encodeNec : decode 0x24_000010EF_DEADBEEF#72 = .ok (.encodeNec 0x10EF#32) := by decide
theorem test_decode_encodeNecx : decode 0x25_00123456_00000000#72 = .ok (.encodeNecx 0x123456#32) := by decide
theorem test_decode_encodeNec32 : decode 0x26_12345678_00000000#72 = .ok (.encodeNec32 0x12345678#32) := by decide
theorem test_decode_encodeSanyo : decode 0x27_000123A5_00000000#72 = .ok (.encodeSanyo 0x0123A5#32) := by decide
theorem test_decode_encodeSharp : decode 0x28_00000141_00000000#72 = .ok (.encodeSharp 0x0141#32) := by decide
/-- V-DEC-9: A and B are ignored. -/
theorem test_decode_txopen : decode 0x34_12345678_9ABCDEF0#72 = .ok (.txopen 4#4) := by decide
theorem test_decode_txsend : decode 0x41_00010015_00000000#72 = .ok (.txsend 1#4 0x010015#32) := by decide
theorem test_decode_txclose : decode 0x50_00000000_00000000#72 = .ok .txclose := by decide
/-- V-DW-3. -/
theorem test_decode_update : decode 0x60_FFFFFC18_00000FA0#72 = .ok (.update 0xFFFFFC18#32 4000#32) := by decide
theorem test_decode_pressPowerToggle : decode 0x70_00000000_00000000#72 = .ok .pressPowerToggle := by decide
theorem test_decode_pressTempDown : decode 0x71_00000000_00000000#72 = .ok .pressTempDown := by decide
theorem test_decode_pressTempUp : decode 0x72_00000000_00000000#72 = .ok .pressTempUp := by decide
/-- V-DEC-1 to V-DEC-7. -/
theorem test_decode_refuses :
    decode 0x00_00000000_00000000#72 = .error .reservedOp ∧ decode 0x80_00000000_00000000#72 = .error .reservedOp ∧
    decode 0xF4_000010EF_00000000#72 = .error .reservedOp ∧
    decode 0x19_00000000_00000000#72 = .error .protocolOutOfRange ∧
    decode 0x73_00000000_00000000#72 = .error .commandOutOfRange ∧
    decode 0x51_00000000_00000000#72 = .error .selNotZero ∧ decode 0x61_00000000_00001388#72 = .error .selNotZero := by
  decide
/-- The table's 25 rows: no word selects two. -/
theorem test_rows_disjoint :
    opcodeRows.length = 25 ∧ opcodeRows.Pairwise fun r r' => r.bits &&& r'.mask ≠ r'.bits &&& r.mask := by decide
/-- The host's numbering of bits: word V-DEC-8 as a number. -/
theorem test_decodeTableWord :
    decodeTableWord 72 0x24_000010EF_DEADBEEF = some (.encodeNec 0x10EF#32) ∧ decodeTableWord 72 0 = none := by decide

/-! ### Durations and power (sections 2.1 and 2.11) -/

theorem test_us :
    us 1 562500#32 = 563#32 ∧ us 3 562500#32 = 1688#32 ∧ us 16 562500#32 = 9000#32 ∧ us 1000 40000#32 = 40000#32 := by
  decide
/-- V-DW-1 to V-DW-5. -/
theorem test_availableDw :
    availableDw 3000#32 8000#32 = 5000 ∧ availableDw 5000#32 0#32 = -5000 ∧
    availableDw 0xFFFFFC18#32 4000#32 = 5000 ∧ availableDw 0x80000000#32 0x7FFFFFFF#32 = 4294967295 ∧
    availableDw 0x7FFFFFFF#32 0x80000000#32 = -4294967295 := by decide
theorem test_tier :
    ([-5000, 4200, 4201, 6000, 6001, 7000, 7001, 9001, 4294967295] : List Int).map (tier tc1)
      = [0, 0, 1, 1, 2, 2, 3, 3, 3] := by decide
theorem test_pressCount :
    ([(3, 0), (0, 3), (1, 3), (0, 2), (0, 1), (0, 4), (3, 2)] : List (Level × Level)).map
      (fun x => (pressCount x.1 x.2).val) = [3, 2, 3, 3, 4, 1, 1] := by decide

/-! ### VALID (section 2.2) -/

/-- V and ERR after a VALID in the reset state. -/
def vOf (i : Instr) : Option (Bool × Nat) := (nextOf (exec i idle)).map fun t => (t.v, t.err.code.toNat)

theorem test_validJvc : vOf (.validJvc 0xFFFF#32) = some (true, 0) ∧ vOf (.validJvc 0x10000#32) = some (false, 0) := by
  decide
theorem test_validSony12 :
    vOf (.validSony12 0x010015#32) = some (true, 0) ∧ vOf (.validSony12 0x80#32) = some (false, 0) := by decide
theorem test_validSony15 :
    vOf (.validSony15 0xFF007F#32) = some (true, 0) ∧ vOf (.validSony15 0x0100#32) = some (false, 0) := by decide
theorem test_validSony20 :
    vOf (.validSony20 0x1FFF7F#32) = some (true, 0) ∧ vOf (.validSony20 0x80#32) = some (false, 0) := by decide
theorem test_validNec : vOf (.validNec 0x00FF#32) = some (true, 0) ∧ vOf (.validNec 0x10000#32) = some (false, 0) := by
  decide
theorem test_validNecx :
    vOf (.validNecx 0x12EC34#32) = some (true, 0) ∧ vOf (.validNecx 0x12ED34#32) = some (false, 0) ∧
    vOf (.validNecx 0x1000000#32) = some (false, 0) := by decide
theorem test_validNec32 :
    vOf (.validNec32 0xFFFFFFFF#32) = some (true, 0) ∧ vOf (.validNec32 0x00FF0000#32) = some (false, 0) := by decide
theorem test_validSanyo :
    vOf (.validSanyo 0x1FFFFF#32) = some (true, 0) ∧ vOf (.validSanyo 0x200000#32) = some (false, 0) := by decide
theorem test_validSharp :
    vOf (.validSharp 0x1FFF#32) = some (true, 0) ∧ vOf (.validSharp 0x2000#32) = some (false, 0) := by decide

/-! ### ENCODE (sections 2.3 to 2.8) -/

/-- The other byte layout of NEC (V-NEC-ALT). -/
def altNec : Config :=
  { tc1 with layout := { Layout.default with necBytes := ⟨⟨1, false⟩, ⟨1, true⟩, ⟨0, false⟩, ⟨0, true⟩⟩ } }

/-- V-NEC-2, and V-NEC-ALT: the same request under the other byte layout. -/
theorem test_encodeNec :
    ebOf (exec (.encodeNec 0x10EF#32) idle) = some
      ([9000, 4500] ++ necBits [1, 1, 1, 1, 0, 1, 1, 1] ++ necBits [0, 0, 0, 0, 1, 0, 0, 0]
        ++ necBits [1, 1, 1, 1, 0, 1, 1, 1] ++ necBits [0, 0, 0, 0, 1, 0, 0, 0] ++ [563], 67, 0) ∧
    ebOf (exec (.encodeNec 0x10EF#32) { idle with cfg := altNec }) = some
      ([9000, 4500] ++ necBits [0, 0, 0, 0, 1, 0, 0, 0] ++ necBits [1, 1, 1, 1, 0, 1, 1, 1]
        ++ necBits [1, 1, 1, 1, 0, 1, 1, 1] ++ necBits [0, 0, 0, 0, 1, 0, 0, 0] ++ [563], 67, 0) := by decide
/-- V-NECX-1. -/
theorem test_encodeNecx : ebOf (exec (.encodeNecx 0x123456#32) idle) = some
    ([9000, 4500] ++ necBits [0, 1, 0, 0, 1, 0, 0, 0] ++ necBits [0, 0, 1, 0, 1, 1, 0, 0]
      ++ necBits [0, 1, 1, 0, 1, 0, 1, 0] ++ necBits [1, 0, 0, 1, 0, 1, 0, 1] ++ [563], 67, 0) := by decide
/-- V-NEC32-1. -/
theorem test_encodeNec32 : ebOf (exec (.encodeNec32 0x12345678#32) idle) = some
    ([9000, 4500] ++ necBits [0, 1, 0, 0, 1, 0, 0, 0] ++ necBits [0, 0, 1, 0, 1, 1, 0, 0]
      ++ necBits [0, 1, 1, 0, 1, 0, 1, 0] ++ necBits [0, 0, 0, 1, 1, 1, 1, 0] ++ [563], 67, 0) := by decide
/-- V-JVC-1. -/
theorem test_encodeJvc : ebOf (exec (.encodeJvc 0x0312#32) idle) = some
    ([8400, 4200] ++ jvcBits [1, 1, 0, 0, 0, 0, 0, 0] ++ jvcBits [0, 1, 0, 0, 1, 0, 0, 0] ++ [525], 35, 0) := by decide
/-- V-SANYO-2. -/
theorem test_encodeSanyo : ebOf (exec (.encodeSanyo 0x0123A5#32) idle) = some
    ([9000, 4500] ++ necBits [1, 1, 0, 0, 0, 1, 0, 0, 1, 0, 0, 0, 0] ++ necBits [0, 0, 1, 1, 1, 0, 1, 1, 0, 1, 1, 1, 1]
      ++ necBits [1, 0, 1, 0, 0, 1, 0, 1] ++ necBits [0, 1, 0, 1, 1, 0, 1, 0] ++ [563], 87, 0) := by decide
/-- V-SHARP-1. -/
theorem test_encodeSharp : ebOf (exec (.encodeSharp 0x0141#32) idle) = some
    (sharpBits [1, 0, 0, 0, 0] ++ sharpBits [1, 0, 0, 0, 0, 0, 1, 0] ++ sharpBits [1, 0] ++ [320, 40000]
      ++ sharpBits [1, 0, 0, 0, 0] ++ sharpBits [0, 1, 1, 1, 1, 1, 0, 1] ++ sharpBits [0, 1] ++ [320], 63, 0) := by decide
/-- V-SONY12-1. -/
theorem test_encodeSony12 : ebOf (exec (.encodeSony12 0x010015#32) idle) = some
    ([2400, 600] ++ sonyBits [1, 0, 1, 0, 1, 0, 0] ++ sonyBits [1, 0, 0, 0] ++ [600], 25, 0) := by decide
/-- V-SONY15-1. -/
theorem test_encodeSony15 : ebOf (exec (.encodeSony15 0x970015#32) idle) = some
    ([2400, 600] ++ sonyBits [1, 0, 1, 0, 1, 0, 0] ++ sonyBits [1, 1, 1, 0, 1, 0, 0] ++ [1200], 31, 0) := by decide
/-- V-SONY20-1. -/
theorem test_encodeSony20 : ebOf (exec (.encodeSony20 0x1A2B15#32) idle) = some
    ([2400, 600] ++ sonyBits [1, 0, 1, 0, 1, 0, 0] ++ sonyBits [0, 1, 0, 1, 1] ++ sonyBits [1, 1, 0, 1, 0, 1, 0]
      ++ [600], 41, 0) := by decide

/-- V-SONY12-1 with the fields in the other order and the pulses exchanged: the layout is read, not fixed. -/
theorem test_encodeSony12_layout :
    let alt : Layout := { Layout.default with sony12Fields := [⟨16, 5⟩, ⟨0, 7⟩], sonyUnits1 := 1, sonyUnits0 := 2 }
    ebOf (exec (.encodeSony12 0x010015#32) { idle with cfg := { tc1 with layout := alt } }) = some
    ([2400, 600] ++ sonyBits [0, 1, 1, 1, 1] ++ sonyBits [0, 1, 0, 1, 0, 1] ++ [1200], 25, 0) := by decide

/-- PT[NEC].max_edges set to 66 (V-NOENC-1). -/
def shortTable : Config :=
  { tc1 with table := { ProtoTable.default with nec := { ProtoTable.default.nec with maxEdges := 66#10 } } }

/-- A block whose edge buffer holds 66 elements. -/
def smallBuffer : Config := { tc1 with sizes := { Sizes.default with ebCap := 66 } }

/-- V-NEC-5, V-NOENC-1, and the same frame over the capacity of EB (R61). -/
theorem test_encodeNec_refuses :
    ebOf (exec (.encodeNec 0x10EF#32) { idle with cfg := smallBuffer }) = some ([], 0, 2) ∧
    ebOf (exec (.encodeNec 0x10000#32) idle) = some ([], 0, 1) ∧
    ebOf (exec (.encodeNec 0x10EF#32) { idle with cfg := shortTable }) = some ([], 0, 2) := by decide

/-! ### The transport (section 2.10) -/

/-- tx_open, ERR and TXLOG. -/
def txOf (o : Host.Outcome State Fault Refusal) : Option (Bool × Nat × List Event) :=
  (nextOf o).map fun t => (t.txOpen, t.err.code.toNat, t.txlog)

/-- V-TX-1 and V-TX-3 to V-TX-8. -/
theorem test_txopen :
    (([allTrue, { allTrue with openOk := false }, { allTrue with queryOk := false },
      { allTrue with canSendRaw := false }, { allTrue with canSetCarrier := false },
      { allTrue with carrierOk := false }, { allTrue with modeOk := false }] : List OpenAnswers).map fun o =>
        txOf (exec (.txopen 4#4) { idle with openAnswers := [o] })) =
    [some (true, 0, [.opened 0, .carrier 0 38000#32, .modePulse 0]), some (false, 4, []),
      some (false, 5, [.opened 0, .closed 0]), some (false, 6, [.opened 0, .closed 0]),
      some (false, 7, [.opened 0, .closed 0]), some (false, 8, [.opened 0, .closed 0]),
      some (false, 9, [.opened 0, .carrier 0 38000#32, .closed 0])] := by decide
/-- V-TX-2 and V-TX-9. -/
theorem test_txopen_binds :
    (nextOf (exec (.txopen 1#4) { idle with openAnswers := [allTrue] })).map (fun t => (t.txProto, t.txCarrier))
      = some (.sony12, 40000#32) ∧
    (nextOf (exec (.txopen 0#4) openNec)).map (fun t => (t.txProto, t.err.code.toNat, t.txlog)) = some (.nec, 13, []) := by
  decide
/-- V-TX-10 to V-TX-12. -/
theorem test_txsend_refuses :
    txOf (exec (.txsend 4#4 0x10EF#32) idle) = some (false, 11, []) ∧
    txOf (exec (.txsend 0#4 0x0312#32) openNec) = some (true, 12, []) ∧
    txOf (exec (.txsend 4#4 0x10000#32) openNec) = some (true, 1, []) := by decide
/-- V-TX-13 and V-TX-14; the list is V-NEC-2's. -/
theorem test_txsend_sends :
    let bits : List (BitVec 32) := ([9000, 4500] ++ necBits [1, 1, 1, 1, 0, 1, 1, 1] ++ necBits [0, 0, 0, 0, 1, 0, 0, 0]
      ++ necBits [1, 1, 1, 1, 0, 1, 1, 1] ++ necBits [0, 0, 0, 0, 1, 0, 0, 0] ++ [563]).map (BitVec.ofNat 32)
    txOf (exec (.txsend 4#4 0x10EF#32) openNec) = some (true, 0, [.frame 0 .nec bits]) ∧
    txOf (exec (.txsend 4#4 0x10EF#32) { openNec with writeAnswers := [264] })
      = some (true, 3, [.short 0 .nec bits 264]) := by decide
/-- V-TX-16, V-TX-17, and the join of R203. -/
theorem test_txclose :
    txOf (exec .txclose openNec) = some (false, 0, [.closed 0]) ∧ txOf (exec .txclose idle) = some (false, 11, []) ∧
    held .txclose ramping = true := by decide

/-! ### The controller (section 2.11) -/

/-- is_on, can_turn_on, can_turn_on_since, ERR, and how many events TXLOG has. -/
def offOf (o : Host.Outcome State Fault Refusal) : Option (Bool × Bool × Nat × Nat × Nat) :=
  (nextOf o).map fun t => (t.isOn, t.canTurnOn, t.canTurnOnSince, t.err.code.toNat, t.txlog.length)

/-- The "can turn on" timer started at 0 and is now at `t`. -/
def waiting (t : Nat) : State := { openNec with canTurnOn := true, time := t }

/-- V-UPD-1 to V-UPD-6. -/
theorem test_update_off :
    [exec (.update 0#32 4200#32) openNec, exec (.update 0#32 4201#32) openNec,
      exec (.update 0#32 5000#32) (waiting 599999), exec (.update 0#32 5000#32) (waiting 600000),
      exec (.update 0#32 4200#32) (waiting 300000),
      exec (.update 0#32 5000#32) { waiting 600000 with txOpen := false }].map offOf =
    [some (false, false, 0, 0, 0), some (false, true, 0, 0, 0), some (false, true, 0, 0, 0),
      some (true, false, 0, 0, 1), some (false, false, 0, 0, 0), some (false, true, 0, 11, 0)] := by decide

/-- is_on, shall_turn_off, ramp_remaining, ramp_next, last_power_change, and how many events TXLOG has. -/
def onOf (o : Host.Outcome State Fault Refusal) : Option (Bool × Bool × List Nat) :=
  (nextOf o).map fun t =>
    (t.isOn, t.shallTurnOff, [t.rampRemaining.val, t.rampNext, t.lastPowerChange, t.txlog.length])

/-- On at level `l`, the "shall turn off" timer started at `since` and now at `t`. -/
def dimming (l : Level) (since t : Nat) : State := { onAt l t with shallTurnOff := true, shallTurnOffSince := since }

/-- V-UPD-7 to V-UPD-14. -/
theorem test_update_on :
    [exec (.update 0#32 9500#32) (onAt 0 59999), exec (.update 0#32 9500#32) (onAt 0 60000),
      exec (.update 0#32 9500#32) (onAt 3 100000), exec (.update 0#32 4200#32) (onAt 0 100000),
      exec (.update 0#32 0#32) (dimming 0 100000 399999), exec (.update 0#32 0#32) (dimming 0 100000 400000),
      exec (.update 0#32 4201#32) (dimming 0 100000 200000), exec (.update 0#32 1000#32) (dimming 2 0 300000)].map onOf =
    [some (true, false, [0, 0, 0, 0]), some (true, false, [3, 60000, 60000, 0]), some (true, false, [0, 0, 0, 0]),
      some (true, true, [0, 0, 0, 0]), some (true, true, [0, 0, 0, 0]), some (false, false, [0, 0, 0, 1]),
      some (true, false, [1, 200000, 200000, 0]), some (false, false, [3, 300000, 300000, 1])] := by decide

/-- is_on, level, can_turn_on, ERR, and how many events TXLOG has. -/
def pressOf (o : Host.Outcome State Fault Refusal) : Option (Bool × Nat × Bool × Nat × Nat) :=
  (nextOf o).map fun t => (t.isOn, t.level.val, t.canTurnOn, t.err.code.toNat, t.txlog.length)

/-- V-PR-1 to V-PR-3, V-PR-7, V-TX-18. -/
theorem test_pressPowerToggle :
    [openNec, onAt 3 0, { openNec with level := 3, canTurnOn := true }, { openNec with writeAnswers := [0] },
      { openNec with txProto := .sony12 }].map (fun s => pressOf (exec .pressPowerToggle s)) =
    [some (true, 0, false, 0, 1), some (false, 3, false, 0, 1), some (true, 0, false, 0, 1),
      some (false, 0, false, 3, 1), some (false, 0, false, 12, 0)] := by decide
/-- V-PR-4: the frame is NEC's of scancode 2, bytes 02, FD, 02, 00. -/
theorem test_pressTempDown :
    pressOf (exec .pressTempDown (onAt 3 0)) = some (true, 3, false, 0, 1) ∧
    ebOf (exec .pressTempDown openNec) = some ([9000, 4500] ++ necBits [0, 1, 0, 0, 0, 0, 0, 0]
      ++ necBits [1, 0, 1, 1, 1, 1, 1, 1] ++ necBits [0, 1, 0, 0, 0, 0, 0, 0] ++ necBits [0, 0, 0, 0, 0, 0, 0, 0]
      ++ [563], 67, 0) := by decide
/-- V-PR-5 and V-PR-6. -/
theorem test_pressTempUp :
    pressOf (exec .pressTempUp (onAt 3 0)) = some (true, 3, false, 0, 1) ∧
    pressOf (exec .pressTempUp idle) = some (false, 0, false, 11, 0) := by decide

/-! ### Steps -/

/-- The press of `ramping` is due, at level 4. -/
def dueAtFour : State := { ramping with time := 1000, level := 4 }

/-- RAMP_PRESS: the level steps cyclically, and a press the device cuts short, or under a handle for another protocol, does
not step it (R251, R252, R281; P7). -/
theorem test_ramp_press :
    (nextOf (step dueAtFour)).map (fun t => [t.level.val, t.rampRemaining.val, t.rampNext, t.rampErr.code.toNat])
      = some [0, 2, 2000, 0] ∧
    (nextOf (step { dueAtFour with writeAnswers := [0] })).map
      (fun t => [t.level.val, t.rampRemaining.val, t.rampErr.code.toNat, t.err.code.toNat]) = some [4, 2, 3, 0] ∧
    (nextOf (step { dueAtFour with txProto := .sony12 })).map
      (fun t => [t.level.val, t.rampRemaining.val, t.rampErr.code.toNat, t.err.code.toNat]) = some [4, 2, 12, 0] := by
  decide
/-- TICK, and its refusal at the last value of TIME (R40, R255). -/
theorem test_tick :
    (nextOf (step ramping)).map (fun t => (t.time, t.rampRemaining.val)) = some (1, 3) ∧
    (nextOf (step { idle with time := 0xFFFFFFFFFFFFFFFF })).map (fun t => t.time) = none := by decide
/-- V-DEC-4 and V-DEC-8 through the step, as the host places them. -/
theorem test_step_runs_placed_word :
    (nextOf (step (idle.withFetchWord 72 0x19_00000000_00000000))).map (fun t => (t.v, t.err.code.toNat, t.requests))
      = some (false, 10, []) ∧
    (nextOf (step (idle.withFetchWord 72 0x24_000010EF_DEADBEEF))).map (fun t => (t.elen.toNat, t.err.code.toNat))
      = some (67, 0) := by decide

/-! ### Witnesses: states and operands that meet the hypotheses of each statement, one for each clause -/

/-- The host's next request is `w`, and it is its turn. -/
def offered (w : Request) : State := idle.offerRequest w

/-- On at level 0 with a ramp in flight, its press not yet due, and the debounce over. -/
def lateRamp : State := { onAt 0 100000 with rampRemaining := 1, rampNext := 100001 }

/-- `s` with the request `w` queued. -/
def queued (s : State) (w : Request) : State := { s with requests := [w] }

/-- A request at the last value of TIME. -/
def lastTick : State := { queued idle 0x50_00000000_00000000#72 with time := 0xFFFFFFFFFFFFFFFF }

theorem tc1_defaultEncoder : DefaultEncoder tc1 := ⟨rfl, rfl⟩

theorem tc1_defaultTables : DefaultTables tc1 := ⟨tc1_defaultEncoder, rfl⟩

theorem witness_DecodeInvertsEncode : (Instr.txsend 8#4 0xFFFFFFFF#32).WellFormed ∧ (Instr.txopen 0#4).WellFormed := by
  decide
theorem witness_EncodeReproducesReadFields : decode 0x24_000010EF_DEADBEEF#72 = .ok (.encodeNec 0x10EF#32) := by decide
theorem witness_DecodeFollowsOpcodeTable :
    decode 0x38_00000000_00000000#72 = .ok (.txopen 8#4) ∧
    (∃ r ∈ opcodeRows, r.selects 0x39_00000000_00000000#72 = true) := by decide
/-- Words that agree in what their format reads: OP 1 and OP 4 differ in B, OP 3 in A and B, OP 6 in nothing. -/
theorem witness_IgnoredFieldsAreNotRead :
    ∀ x ∈ ([(0x15_0012ED34_00000000#72, 0x15_0012ED34_FFFFFFFF#72), (0x44_000010EF_00000000#72, 0x44_000010EF_00000001#72),
        (0x34_00000000_00000000#72, 0x34_12345678_9ABCDEF0#72),
        (0x60_00000BB8_00001F40#72, 0x60_00000BB8_00001F40#72)] : List (Request × Request)),
      x.1.extractLsb' 64 8 = x.2.extractLsb' 64 8 ∧
      ((x.1.extractLsb' 68 4 ∈ [1#4, 2#4, 4#4, 6#4]) → x.1.extractLsb' 32 32 = x.2.extractLsb' 32 32) ∧
      (x.1.extractLsb' 68 4 = 6#4 → x.1.extractLsb' 0 32 = x.2.extractLsb' 0 32) := by
  intro x hx; fin_cases hx <;> decide
/-- Every way a request is illegal, at the boundary: OP 0 and 8, SEL 9, SEL 3, SEL 1. -/
theorem witness_IllegalRequestsOnlySetErr :
    ∀ w ∈ [0x00_00000000_00000000#72, 0x80_00000000_00000000#72, 0x19_00000000_00000000#72, 0x49_00000000_00000000#72,
        0x73_00000000_00000000#72, 0x51_00000000_00000000#72, 0x61_00000000_00001388#72],
      (w.extractLsb' 68 4 = 0#4 ∨ 8 ≤ (w.extractLsb' 68 4).toNat ∨
        (w.extractLsb' 68 4 ∈ [1#4, 2#4, 3#4, 4#4] ∧ 9 ≤ (w.extractLsb' 64 4).toNat) ∨
        (w.extractLsb' 68 4 = 7#4 ∧ 3 ≤ (w.extractLsb' 64 4).toNat) ∨
        (w.extractLsb' 68 4 ∈ [5#4, 6#4] ∧ w.extractLsb' 64 4 ≠ 0#4)) ∧
      (offered w).requests = [w] ∧ nextTurn (offered w) = .host := by
  intro w hw; fin_cases hw <;> decide
theorem witness_StepPerformsDecodedRequest :
    (offered 0x50_00000000_00000000#72).requests = [0x50_00000000_00000000#72] ∧
    decode 0x50_00000000_00000000#72 = .ok .txclose ∧ nextTurn (offered 0x50_00000000_00000000#72) = .host := by decide
/-- Both sides enabled, only the host, and neither. -/
theorem witness_OnlyEnabledAgentsMove :
    (hostReady (offered 0x50_00000000_00000000#72) = true ∧ tickReady (offered 0x50_00000000_00000000#72) = true) ∧
    (hostReady lastTick = true ∧ pressDue lastTick = false ∧ tickReady lastTick = false) ∧ hostReady idle = false := by
  decide
/-- TXCLOSE queued, with a ramp in flight and no press due. -/
def closing : State := queued lateRamp 0x50_00000000_00000000#72

/-- UPDATE queued, with a press due. -/
def joining : State := { queued lateRamp 0x60_00000000_0000251C#72 with rampNext := 100000 }

/-- TXCLOSE held with no press due, and UPDATE held with a press due. -/
theorem witness_HeldRequestWaits :
    (closing.requests = [0x50_00000000_00000000#72] ∧ decode 0x50_00000000_00000000#72 = .ok .txclose ∧
      held .txclose closing = true ∧ closing.time < 2 ^ closing.cfg.sizes.timeW - 1 ∧ pressDue closing = false) ∧
    joining.requests = [0x60_00000000_0000251C#72] ∧
      decode 0x60_00000000_0000251C#72 = .ok (.update 0#32 9500#32) ∧ held (.update 0#32 9500#32) joining = true ∧
      joining.time < 2 ^ joining.cfg.sizes.timeW - 1 ∧ pressDue joining = true := by decide
/-- A press due, none due one tick before it, and the last value of TIME. -/
theorem witness_PressBeforeTick :
    (nextTurn { ramping with time := 1000 } = .internal ∧ 0 < ramping.rampRemaining.val ∧ 1000 = ramping.rampNext) ∧
    (nextTurn { ramping with time := 999 } = .internal ∧ 999 ≠ ramping.rampNext) ∧
    nextTurn { idle with time := 0xFFFFFFFFFFFFFFFF } = .internal ∧ 0xFFFFFFFFFFFFFFFF = 2 ^ idle.cfg.sizes.timeW - 1 := by decide
theorem witness_ValidMaskProtocols : idle.cfg.table = ProtoTable.default := rfl
theorem witness_ValidNecxAndNec32 : idle.cfg.table = ProtoTable.default := rfl
theorem witness_DurationConversion : 1000 ≤ 1000 ∧ 0 ≤ 1000 := by decide
theorem witness_FrameLengths : DefaultTables tc1 := tc1_defaultTables
/-- The largest valid scancode of each. -/
theorem witness_EncodeNecFamily :
    DefaultTables idle.cfg ∧ (0xFFFF#32).toNat ≤ 0xFFFF ∧ (0xFFFFFF#32).toNat ≤ 0xFFFFFF ∧
    (0xFFFFFF#32).extractLsb' 16 8 ≠ ~~~((0xFFFFFF#32).extractLsb' 8 8) ∧
    (0xFFFFFFFF#32).extractLsb' 24 8 ≠ ~~~((0xFFFFFFFF#32).extractLsb' 16 8) :=
  ⟨tc1_defaultTables, by decide, by decide, by decide, by decide⟩
theorem witness_EncodeJvc : DefaultTables idle.cfg ∧ (0xFFFF#32).toNat ≤ 0xFFFF := ⟨tc1_defaultTables, by decide⟩
theorem witness_EncodeSanyo : DefaultTables idle.cfg ∧ (0x1FFFFF#32).toNat ≤ 0x1FFFFF :=
  ⟨tc1_defaultTables, by decide⟩
theorem witness_EncodeSharp : DefaultTables idle.cfg ∧ (0x1FFF#32).toNat ≤ 0x1FFF := ⟨tc1_defaultTables, by decide⟩
theorem witness_EncodeSonyFamily :
    DefaultTables idle.cfg ∧ 0x1F007F#32 &&& 0xFFE0FF80#32 = 0#32 ∧ 0xFF007F#32 &&& 0xFF00FF80#32 = 0#32 ∧
    0x1FFF7F#32 &&& 0xFFE00080#32 = 0#32 := ⟨tc1_defaultTables, by decide, by decide, by decide⟩
/-- An invalid scancode, a row short by one, and a buffer short by one. -/
theorem witness_EncodeRefusals :
    isValid idle.cfg .nec 0x10000#32 = false ∧
    (isValid shortTable .nec 0xFFFF#32 = true ∧ ¬Fits { idle with cfg := shortTable } .nec) ∧
    isValid smallBuffer .nec 0xFFFF#32 = true ∧ ¬Fits { idle with cfg := smallBuffer } .nec := by
  unfold Fits; decide
theorem witness_SanyoFramesLastTheSame : DefaultEncoder tc1 := tc1_defaultEncoder
theorem witness_FramesReadOnlyMaskedBits : DefaultEncoder tc1 := tc1_defaultEncoder
theorem witness_FramesEndOnPulses :
    tc1.table = ProtoTable.default ∧ 1 ≤ tc1.layout.sonyUnits1 ∧ tc1.layout.sonyUnits1 ≤ 1000 ∧
    1 ≤ tc1.layout.sonyUnits0 ∧ tc1.layout.sonyUnits0 ≤ 1000 := by decide
theorem witness_TxopenOutcomes : idle.txOpen = false := rfl
theorem witness_TxopenAlreadyOpen : openNec.txOpen = true := rfl
theorem witness_ProtocolOutOfRangeRefused : 9 ≤ (9#4).toNat ∧ 9 ≤ (15#4).toNat := by decide
/-- A TXOPEN that ends in an error after the device was opened. -/
theorem witness_FailedOpenLeaksNoHandle :
    ∃ t, exec (.txopen 4#4) { idle with openAnswers := [{ allTrue with modeOk := false }] } = .next t ∧ t.err ≠ .ok :=
  ⟨_, rfl, by decide⟩
/-- The handle open for NEC, under a table whose NEC row is short by one. -/
def openShortTable : State := { openNec with cfg := shortTable }

/-- NotOpen, ProtocolMismatch, InvalidScancode, NoEncoding. -/
theorem witness_TxsendRefusals :
    idle.txOpen = false ∧ (openNec.txOpen = true ∧ Proto.jvc ≠ openNec.txProto) ∧
    (openNec.txOpen = true ∧ Proto.nec = openNec.txProto ∧ isValid openNec.cfg .nec 0x10000#32 = false) ∧
    openShortTable.txOpen = true ∧ Proto.nec = openShortTable.txProto ∧
      isValid openShortTable.cfg .nec 0xFFFF#32 = true ∧ ¬Fits openShortTable .nec := by
  unfold Fits; decide
theorem openNec_sendable : Sendable openNec .nec 0x10EF#32 := ⟨by decide, by decide, by decide⟩
/-- A device that takes 66 elements. -/
def pressShort : State := { openNec with writeAnswers := [264] }

/-- The whole frame, and one element short. -/
theorem witness_TxsendOutcomes :
    (openNec.txOpen = true ∧ Proto.nec = openNec.txProto ∧ Sendable openNec .nec 0x10EF#32 ∧
      openNec.nextWrite = 4 * frameLength openNec.cfg.layout .nec) ∧
    pressShort.txOpen = true ∧ Proto.nec = pressShort.txProto ∧ Sendable pressShort .nec 0x10EF#32 ∧
      pressShort.nextWrite ≠ 4 * frameLength pressShort.cfg.layout .nec :=
  ⟨⟨rfl, rfl, openNec_sendable, by decide⟩, rfl, rfl, openNec_sendable, by decide⟩
theorem witness_TxcloseOutcomes :
    (openNec.rampRemaining = 0 ∧ openNec.txOpen = true) ∧ (idle.rampRemaining = 0 ∧ idle.txOpen = false) ∧
    lateRamp.rampRemaining ≠ 0 := by decide
theorem witness_TargetLevel : tc1.lowThreshold ≤ tc1.midThreshold ∧ tc1.midThreshold ≤ tc1.highThreshold := by decide
/-- At Low, and one above it with one tick to go. -/
theorem witness_UpdateOffWithoutFiring :
    idle.isOn = false ∧ availableDw 0#32 4200#32 ≤ idle.cfg.lowThreshold ∧
    (waiting 599999).isOn = false ∧ (waiting 599999).cfg.lowThreshold < availableDw 0#32 4201#32 ∧
    (waiting 599999).time < (onTimerRunning (waiting 599999)).canTurnOnSince + (waiting 599999).cfg.tOn := by decide
theorem commandReady_openNec (cmd : Command) : CommandReady openNec cmd := by
  cases cmd <;> exact ⟨rfl, rfl, by decide, by decide, by decide⟩
/-- The first tick at which the timer fires, with a device that takes nothing. -/
def waitingShort : State := { waiting 600000 with writeAnswers := [0] }

/-- The first tick at which the timer fires, with a device that takes the frame and one that does not. -/
theorem witness_UpdateTurnsOn :
    ((waiting 600000).isOn = false ∧ (waiting 600000).cfg.lowThreshold < availableDw 0#32 4201#32 ∧
      (onTimerRunning (waiting 600000)).canTurnOnSince + (waiting 600000).cfg.tOn ≤ (waiting 600000).time ∧
      CommandReady (waiting 600000) .powerToggle ∧ DeviceTakes (waiting 600000)) ∧
    waitingShort.isOn = false ∧ waitingShort.cfg.lowThreshold < availableDw 0#32 4201#32 ∧
      (onTimerRunning waitingShort).canTurnOnSince + waitingShort.cfg.tOn ≤ waitingShort.time ∧
      CommandReady waitingShort .powerToggle ∧ ¬DeviceTakes waitingShort := by
  refine ⟨⟨by decide, by decide, by decide, commandReady_openNec .powerToggle, ?_⟩,
    by decide, by decide, by decide, commandReady_openNec .powerToggle, ?_⟩ <;> unfold DeviceTakes <;> decide
theorem witness_UpdateRequestsLevel :
    (onAt 0 60000).isOn = true ∧ NotHeld 0#32 4201#32 (onAt 0 60000) ∧
    (onAt 0 60000).cfg.lowThreshold < availableDw 0#32 4201#32 := by
  refine ⟨rfl, ?_, by decide⟩
  unfold NotHeld; decide
theorem witness_UpdateRunsOffTimer :
    (dimming 2 0 299999).isOn = true ∧ NotHeld 0#32 4200#32 (dimming 2 0 299999) ∧
    availableDw 0#32 4200#32 ≤ (dimming 2 0 299999).cfg.lowThreshold ∧
    (dimming 2 0 299999).time < (offTimerRunning (dimming 2 0 299999)).shallTurnOffSince +
      (dimming 2 0 299999).cfg.tOff := by
  refine ⟨rfl, ?_, ?_, ?_⟩ <;> first | decide | (unfold NotHeld; decide)
/-- The last tick of the off timer, with a device that takes nothing. -/
def dimmingShort : State := { dimming 2 0 300000 with writeAnswers := [0] }

/-- The first tick at which the off timer fires, with a device that takes the frame and one that does not. -/
theorem witness_UpdateTurnsOff :
    ((dimming 2 0 300000).isOn = true ∧ NotHeld 0#32 4200#32 (dimming 2 0 300000) ∧
      availableDw 0#32 4200#32 ≤ (dimming 2 0 300000).cfg.lowThreshold ∧
      (offTimerRunning (dimming 2 0 300000)).shallTurnOffSince + (dimming 2 0 300000).cfg.tOff ≤
        (dimming 2 0 300000).time ∧
      CommandReady (dimming 2 0 300000) .powerToggle ∧ DeviceTakes (dimming 2 0 300000)) ∧
    dimmingShort.isOn = true ∧ NotHeld 0#32 4200#32 dimmingShort ∧
      availableDw 0#32 4200#32 ≤ dimmingShort.cfg.lowThreshold ∧
      (offTimerRunning dimmingShort).shallTurnOffSince + dimmingShort.cfg.tOff ≤ dimmingShort.time ∧
      CommandReady dimmingShort .powerToggle ∧ ¬DeviceTakes dimmingShort := by
  refine ⟨⟨rfl, ?_, by decide, by decide, commandReady_openNec .powerToggle, ?_⟩, rfl, ?_, by decide, by decide,
    commandReady_openNec .powerToggle, ?_⟩
  · unfold NotHeld; decide
  · unfold DeviceTakes; decide
  · unfold NotHeld; decide
  · unfold DeviceTakes; decide
/-- No handle. -/
def noHandle (s : State) : State := { s with txOpen := false }
/-- A handle for another protocol. -/
def otherHandle (s : State) : State := { s with txProto := .sony12 }
/-- Command scancodes that fail the mask. -/
def invalidCommands (s : State) : State := { s with cfg := Config.withScancodes fun _ => 0x10000#32 }
/-- A table whose NEC row is short by one. -/
def shortRow (s : State) : State := { s with cfg := shortTable }

/-- The four refusals of a send, each from its own change to a state in which the send would go through. -/
theorem sendRefused_each (cmd : Command) :
    SendRefused (noHandle openNec) cmd .notOpen ∧ SendRefused (otherHandle openNec) cmd .protocolMismatch ∧
    SendRefused (invalidCommands openNec) cmd .invalidScancode ∧ SendRefused (shortRow openNec) cmd .noEncoding := by
  unfold SendRefused Fits; cases cmd <;> decide

/-- Off with the timer run out, and On with the off timer run out, under each of the four refusals. -/
theorem witness_UpdateSendRefused :
    ∀ x ∈ ([(noHandle, .notOpen), (otherHandle, .protocolMismatch), (invalidCommands, .invalidScancode),
        (shortRow, .noEncoding)] : List ((State → State) × Err)),
      (SendRefused (x.1 (waiting 600000)) .powerToggle x.2 ∧ (x.1 (waiting 600000)).isOn = false ∧
        (x.1 (waiting 600000)).cfg.lowThreshold < availableDw 0#32 4201#32 ∧
        (onTimerRunning (x.1 (waiting 600000))).canTurnOnSince + (x.1 (waiting 600000)).cfg.tOn ≤
          (x.1 (waiting 600000)).time) ∧
      SendRefused (x.1 (dimming 0 0 300000)) .powerToggle x.2 ∧ (x.1 (dimming 0 0 300000)).isOn = true ∧
        NotHeld 0#32 4200#32 (x.1 (dimming 0 0 300000)) ∧
        availableDw 0#32 4200#32 ≤ (x.1 (dimming 0 0 300000)).cfg.lowThreshold ∧
        (offTimerRunning (x.1 (dimming 0 0 300000))).shallTurnOffSince + (x.1 (dimming 0 0 300000)).cfg.tOff ≤
          (x.1 (dimming 0 0 300000)).time := by
  obtain ⟨h1, h2, h3, h4⟩ := sendRefused_each .powerToggle
  unfold NotHeld
  intro x hx
  simp only [List.mem_cons, List.not_mem_nil, or_false] at hx
  obtain rfl | rfl | rfl | rfl := hx
  · exact ⟨⟨h1, by decide⟩, h1, by decide⟩
  · exact ⟨⟨h2, by decide⟩, h2, by decide⟩
  · exact ⟨⟨h3, by decide⟩, h3, by decide⟩
  · exact ⟨⟨h4, by decide⟩, h4, by decide⟩
theorem witness_UpdateWaitsForRamp : ¬NotHeld 0#32 9500#32 lateRamp := by unfold NotHeld; decide
theorem witness_PressPowerToggle :
    CommandReady openNec .powerToggle ∧ DeviceTakes openNec ∧ openNec.isOn = false ∧
    CommandReady (onAt 3 0) .powerToggle ∧ DeviceTakes (onAt 3 0) ∧ (onAt 3 0).isOn = true := by
  refine ⟨commandReady_openNec _, ?_, rfl, commandReady_openNec .powerToggle, ?_, rfl⟩ <;> unfold DeviceTakes <;> decide
theorem witness_PressTemperature :
    DeviceTakes openNec ∧ CommandReady openNec .tempDown ∧ CommandReady openNec .tempUp :=
  ⟨by unfold DeviceTakes; decide, commandReady_openNec _, commandReady_openNec _⟩
/-- A ramp whose next press the device cuts short by one element. -/
def rampingShort : State := { ramping with writeAnswers := [264] }

/-- The five failures of a press. -/
theorem witness_PressFailures :
    (noHandle openNec).txOpen = false ∧
    ((otherHandle openNec).txOpen = true ∧ (otherHandle openNec).txProto ≠ (otherHandle openNec).cfg.hpcProto) ∧
    ((invalidCommands openNec).txOpen = true ∧
      (invalidCommands openNec).txProto = (invalidCommands openNec).cfg.hpcProto ∧
      isValid (invalidCommands openNec).cfg .nec ((invalidCommands openNec).cfg.cmdScancode .tempUp) = false) ∧
    ((shortRow openNec).txOpen = true ∧ (shortRow openNec).txProto = (shortRow openNec).cfg.hpcProto ∧
      isValid (shortRow openNec).cfg .nec ((shortRow openNec).cfg.cmdScancode .tempUp) = true ∧
      ¬Fits (shortRow openNec) (shortRow openNec).cfg.hpcProto) ∧
    CommandReady pressShort .tempDown ∧ ¬DeviceTakes pressShort := by
  refine ⟨rfl, by decide, by decide, ?_, commandReady_openNec .tempDown, ?_⟩
  · unfold Fits; decide
  · unfold DeviceTakes; decide
/-- A press the device takes, one it cuts short, and the four refusals. -/
theorem witness_RampPressOutcomes :
    (0 < ramping.rampRemaining.val ∧ CommandReady ramping .inverterPower ∧ DeviceTakes ramping) ∧
    (0 < rampingShort.rampRemaining.val ∧ CommandReady rampingShort .inverterPower ∧ ¬DeviceTakes rampingShort) ∧
    (0 < (noHandle ramping).rampRemaining.val ∧ SendRefused (noHandle ramping) .inverterPower .notOpen) ∧
    (0 < (otherHandle ramping).rampRemaining.val ∧
      SendRefused (otherHandle ramping) .inverterPower .protocolMismatch) ∧
    (0 < (invalidCommands ramping).rampRemaining.val ∧
      SendRefused (invalidCommands ramping) .inverterPower .invalidScancode) ∧
    0 < (shortRow ramping).rampRemaining.val ∧ SendRefused (shortRow ramping) .inverterPower .noEncoding := by
  obtain ⟨h1, h2, h3, h4⟩ := sendRefused_each .inverterPower
  refine ⟨⟨by decide, commandReady_openNec .inverterPower, ?_⟩, ⟨by decide, commandReady_openNec .inverterPower, ?_⟩,
    ⟨by decide, h1⟩, ⟨by decide, h2⟩, ⟨by decide, h3⟩, by decide, h4⟩ <;> unfold DeviceTakes <;> decide
theorem witness_ResetValues : ∃ s : State, s = State.reset := ⟨_, rfl⟩
theorem ramping_inv : ramping.Inv where
  buffer := ⟨rfl, by decide⟩
  clock := ⟨by decide, by decide, by decide, by decide⟩
  latches := ⟨fun _ => rfl, fun _ => rfl⟩
  handle := fun _ => rfl
  ramp := fun _ => ⟨by decide, by decide⟩
/-- A state between two presses steps, and meets the invariant. -/
theorem witness_StepKeepsInvariant : ramping.Inv ∧ ∃ t, step ramping = .next t := ⟨ramping_inv, _, rfl⟩
theorem witness_JoinNeverNeeded : ramping.Inv ∧ tc1.Ok := by
  refine ⟨ramping_inv, ⟨rfl, rfl, rfl, rfl, rfl, rfl, rfl⟩, ?_, ?_, by decide, by decide, by decide, by decide⟩
  · intro cmd; cases cmd <;> decide
  · intro p; cases p <;> decide
/-- A due press the device cuts short. -/
def dueShort : State := { dueAtFour with writeAnswers := [264] }

/-- A step that appends a frame, the device having reported 4 * 67 bytes, and one that appends a short write. -/
theorem witness_StepAppendsGenuineEvents :
    (∃ t, step dueAtFour = .next t ∧ t.txlog.map Event.isFrame = [true] ∧
      (dueAtFour.takeTurn (nextTurn dueAtFour)).nextWrite = 4 * 67) ∧
    ∃ t, step dueShort = .next t ∧ t.txlog.map Event.isFrame = [false] ∧
      (dueShort.takeTurn (nextTurn dueShort)).nextWrite = 264 :=
  ⟨⟨_, rfl, by decide, by decide⟩, _, rfl, by decide, by decide⟩
theorem witness_StepKeepsConfiguration : ∃ t, step dueAtFour = .next t := ⟨_, rfl⟩
/-- A step that moves TIME and one that does not. -/
theorem witness_TimeMovesOnlyByTick :
    (∃ t, step ramping = .next t ∧ t.time = 1) ∧ ∃ t, step dueAtFour = .next t ∧ t.time = 1000 :=
  ⟨⟨_, rfl, by decide⟩, _, rfl, by decide⟩
/-- A press that changes the level, and a turn-on that does. -/
theorem witness_LevelChanges :
    (∃ t, step dueAtFour = .next t ∧ t.level ≠ dueAtFour.level ∧ nextTurn dueAtFour = .internal) ∧
    ∃ t, step (({ openNec with level := 3 } : State).offerRequest 0x70_00000000_00000000#72) = .next t ∧ t.level = 0 :=
  ⟨⟨_, rfl, by decide, by decide⟩, _, rfl, by decide⟩
/-- A press that fails with the fault already set, and a host step. -/
theorem witness_FaultStickyErrHostOnly :
    (∃ t, step { dueAtFour with rampFault := true } = .next t) ∧ nextTurn dueAtFour = .internal ∧
    nextTurn (offered 0x50_00000000_00000000#72) = .host := ⟨⟨_, rfl⟩, by decide, by decide⟩
/-- Turning on and turning off at the first tick that allows it. -/
theorem witness_TimersNeverFireEarly :
    0 < tc1.tOn ∧ 0 < tc1.tOff ∧
    (∃ t, exec (.update 0#32 4201#32) (waiting 600000) = .next t ∧ t.isOn = true) ∧
    ∃ t, exec (.update 0#32 4200#32) (dimming 0 0 300000) = .next t ∧ t.isOn = false :=
  ⟨by decide, by decide, ⟨_, rfl, by decide⟩, _, rfl, by decide⟩
/-- A step that fills the buffer, read at its last element. -/
theorem witness_BufferHoldsWholeFrame :
    ∃ t, step dueAtFour = .next t ∧ t.elen.toNat = 67 ∧ readEdge t 66 = 563#32 := ⟨_, rfl, by decide, by decide⟩
theorem witness_DuePressIsTaken : pressDue dueAtFour = true := by decide
/-- Three presses, the first a thousand ticks away. -/
theorem witness_RampRunsToCompletion :
    ramping.requests = [] ∧ ramping.rampRemaining.val = 3 ∧ ramping.time ≤ ramping.rampNext ∧
    ramping.rampNext + (3 - 1) * ramping.cfg.tPress ≤ 2 ^ ramping.cfg.sizes.timeW - 1 ∧ CommandReady ramping .inverterPower ∧
    ramping.writeAnswers = List.replicate 3 (4 * frameLength ramping.cfg.layout ramping.cfg.hpcProto) ++ [] :=
  ⟨rfl, rfl, by decide, by decide, commandReady_openNec .inverterPower, rfl⟩

end Sys2Proof.Tests
end

section
/-!
SUPPORT. Whose step it was and what that agent did: a host operation, a press or a tick. What each can do to the
controller and to the transport is said once for each in the two sections after this, and the proofs of the statements
of 10_state.md are read off these.
-/

namespace Sys2Proof.Machine

/-! ### Whose step it was -/

/-- What the host's request does once it has left the queue: an operation's effect, or an illegal word's refusal. -/
theorem runRequest_effect {s t : State} {w : Request} {rest : List Request} (hq : s.requests = w :: rest)
    (h : runRequest s = .next t) : HostEffect s.dropRequest t := by
  simp only [runRequest, hq] at h
  split at h
  · exact exec_effect h
  · cases h; exact .illegal

/-- Everything the internal side can do when it answers a next state. -/
theorem runInternal_cases {s t : State} (h : runInternal s = .next t) :
    (pressDue s = true ∧ t = rampPress s) ∨ (tickReady s = true ∧ t = tick s) := by
  unfold runInternal at h
  split at h
  · cases h; exact .inl ⟨‹_›, rfl⟩
  · split at h
    · cases h; exact .inr ⟨‹_›, rfl⟩
    · cases h

theorem step_of_host {s : State} (hn : nextTurn s = .host) : step s = runRequest (s.takeTurn .host) := by
  simp [step, runTurn, hn]

theorem step_of_internal {s : State} (hn : nextTurn s = .internal) :
    step s = runInternal (s.takeTurn .internal) := by
  simp [step, runTurn, hn]

/-- A step of the host performs its next request. -/
theorem hostEffect_of_step {s t : State} (hn : nextTurn s = .host) (h : step s = .next t) :
    HostEffect (s.takeTurn .host).dropRequest t := by
  obtain ⟨w, rest, hq, -⟩ := hostReady_cases (nextTurn_host hn)
  exact runRequest_effect (by simpa using hq) (step_of_host hn ▸ h)

/-- The three kinds of step, each with the agent whose turn it was. -/
theorem step_cases {s t : State} (h : step s = .next t) :
    (nextTurn s = .host ∧ HostEffect (s.takeTurn .host).dropRequest t) ∨
    (nextTurn s = .internal ∧ pressDue s = true ∧ t = rampPress (s.takeTurn .internal)) ∨
    (nextTurn s = .internal ∧ tickReady s = true ∧ t = tick (s.takeTurn .internal)) := by
  cases hn : nextTurn s with
  | host => exact .inl ⟨rfl, hostEffect_of_step hn h⟩
  | internal =>
    obtain ⟨hp, ht⟩ | ⟨hr, ht⟩ := runInternal_cases (step_of_internal hn ▸ h)
    · exact .inr (.inl ⟨rfl, by simpa using hp, ht⟩)
    · exact .inr (.inr ⟨rfl, by simpa using hr, ht⟩)

theorem pressDue_iff {s : State} : pressDue s = true ↔ 0 < s.rampRemaining.val ∧ s.time = s.rampNext := by
  simp [pressDue, rampInFlight]

theorem pressDue_eq_false_iff {s : State} :
    pressDue s = false ↔ ¬(0 < s.rampRemaining.val ∧ s.time = s.rampNext) := by
  rw [← pressDue_iff, Bool.not_eq_true]

theorem tickReady_iff {s : State} :
    tickReady s = true ↔ ¬(0 < s.rampRemaining.val ∧ s.time = s.rampNext) ∧ s.time < s.cfg.timeMax := by
  rw [← pressDue_eq_false_iff]; simp [tickReady]

/-- Taking a turn touches the schedule and the draw counter alone. -/
theorem takeTurn_eq (s : State) (u : Turn) :
    s.takeTurn u = { s with schedule := (s.takeTurn u).schedule, draws := (s.takeTurn u).draws } := by
  unfold State.takeTurn
  split
  · split <;> rfl
  · rfl

/-- A tick after the turn is taken moves TIME, and of the rest only the schedule and the draw counter. -/
theorem tick_takeTurn (s : State) (u : Turn) :
    tick (s.takeTurn u) = { s with time := s.time + 1, schedule := (tick (s.takeTurn u)).schedule,
                                   draws := (tick (s.takeTurn u)).draws } := by
  rw [takeTurn_eq]; rfl

/-! ### A press -/

/-- A press leaves every register of the controller but the level and the ramp's own; it never clears the fault. -/
theorem rampPress_frame (s : State) :
    (rampPress s).cfg = s.cfg ∧ (rampPress s).isOn = s.isOn ∧ (rampPress s).time = s.time ∧
      (rampPress s).err = s.err ∧ (rampPress s).v = s.v ∧ (s.rampFault = true → (rampPress s).rampFault = true) := by
  obtain ⟨-, h⟩ | ⟨-, h⟩ := rampPress_cases s <;> simp [h]

/-- The level after a press is the old one, where the press failed, or one up the cycle. -/
theorem rampPress_level (s : State) :
    (rampPress s).level = s.level ∨ (rampPress s).level.val = (s.level.val + 1) % nLevels := by
  obtain ⟨-, h⟩ | ⟨-, h⟩ := rampPress_cases s
  · exact .inr (by simp [h])
  · exact .inl (by simp [h])

/-- A press counts one press off and puts the next T_PRESS later, whatever the device answered (R251, R252). -/
theorem rampPress_ramp (s : State) :
    (rampPress s).rampRemaining.val = s.rampRemaining.val - 1 ∧ (rampPress s).rampNext = s.rampNext + s.cfg.tPress := by
  obtain ⟨-, h⟩ | ⟨-, h⟩ := rampPress_cases s <;> simp [h]

end Sys2Proof.Machine

namespace Sys2Proof.Proofs

open Sys2Proof.Machine

/-- Settles O11, by the two tests of the internal side. -/
theorem pressBeforeTick : Obligations.PressBeforeTick := by
  unfold Obligations.PressBeforeTick
  intro s hn
  rw [step_of_internal hn]
  refine ⟨fun hp => ?_, fun ⟨hp, ht⟩ => ?_, fun ⟨hp, ht⟩ => ?_⟩
  · have hd := pressDue_iff.mpr hp
    obtain ⟨hrem, hnext⟩ := rampPress_ramp (s.takeTurn .internal)
    obtain ⟨-, -, htime, -⟩ := rampPress_frame (s.takeTurn .internal)
    refine ⟨rampPress (s.takeTurn .internal), by simp [runInternal, hd], by simpa using htime, ?_, by simpa using hnext⟩
    simp only [takeTurn_rampRemaining] at hrem
    omega
  · have hd := pressDue_eq_false_iff.mpr hp
    have hr := tickReady_iff.mpr ⟨hp, ht⟩
    exact ⟨tick (s.takeTurn .internal), by simp [runInternal, hd, hr], tick_takeTurn s .internal⟩
  · have hd := pressDue_eq_false_iff.mpr hp
    have hr : tickReady s = false := by simp [tickReady, Config.timeMax, ht]
    simp [runInternal, hd, hr]

end Sys2Proof.Proofs
end

section
/-!
SUPPORT. The controller's view of the state, and what a host operation can do to it.
-/

namespace Sys2Proof.Machine

/-- The controller's registers, with the configuration and TIME they are read with (R23 to R27, R35 to R40). -/
structure Controller where
  cfg : Config
  isOn : Bool
  canTurnOn : Bool
  shallTurnOff : Bool
  rampFault : Bool
  rampErr : Err
  level : Level
  lastPowerChange : Nat
  canTurnOnSince : Nat
  shallTurnOffSince : Nat
  rampRemaining : Fin nLevels
  rampNext : Nat
  time : Nat

/-- The controller's part of the state. -/
def State.controller (s : State) : Controller where
  cfg := s.cfg
  isOn := s.isOn
  canTurnOn := s.canTurnOn
  shallTurnOff := s.shallTurnOff
  rampFault := s.rampFault
  rampErr := s.rampErr
  level := s.level
  lastPowerChange := s.lastPowerChange
  canTurnOnSince := s.canTurnOnSince
  shallTurnOffSince := s.shallTurnOffSince
  rampRemaining := s.rampRemaining
  rampNext := s.rampNext
  time := s.time

/-! ### The updates that leave the controller alone -/

@[simp] theorem fail_controller (s : State) (e : Err) : (s.fail e).controller = s.controller := rfl
@[simp] theorem illegal_controller (s : State) : s.illegal.controller = s.controller := rfl
@[simp] theorem done_controller (s : State) : s.done.controller = s.controller := rfl
@[simp] theorem log_controller (s : State) (e : Event) : (s.log e).controller = s.controller := rfl
@[simp] theorem storeFrame_controller (s : State) (l : List Edge) : (s.storeFrame l).controller = s.controller := rfl
@[simp] theorem openDrawn_controller (s : State) : s.openDrawn.controller = s.controller := rfl
@[simp] theorem bindHandle_controller (s : State) (p : Proto) : (s.bindHandle p).controller = s.controller := rfl
@[simp] theorem dropHandle_controller (s : State) : s.dropHandle.controller = s.controller := rfl
@[simp] theorem dropRequest_controller (s : State) : s.dropRequest.controller = s.controller := rfl
@[simp] theorem validOp_controller (p : Proto) (sc : Scancode) (s : State) :
    (validOp p sc s).controller = s.controller := rfl

@[simp] theorem takeTurn_controller (s : State) (u : Turn) : (s.takeTurn u).controller = s.controller := by
  rw [takeTurn_eq]; rfl

@[simp] theorem sendFrame_controller (p : Proto) (sc : Scancode) (s : State) :
    (sendFrame p sc s).2.controller = s.controller :=
  sendFrame_keeps (P := fun u => u.controller = s.controller) (fun _ _ _ _ h => h) (fun _ _ h => h) p sc rfl

@[simp] theorem send_controller (cmd : Command) (s : State) : (send cmd s).2.controller = s.controller :=
  send_keeps (P := fun u => u.controller = s.controller) (fun _ _ _ _ h => h) (fun _ _ h => h) cmd rfl

@[simp] theorem encodeOp_controller (p : Proto) (sc : Scancode) (s : State) :
    (encodeOp p sc s).controller = s.controller := by
  unfold encodeOp
  split
  · rfl
  · split <;> rfl

@[simp] theorem txsendOp_controller (p : Proto) (sc : Scancode) (s : State) :
    (txsendOp p sc s).controller = s.controller := by
  unfold txsendOp
  split
  · rfl
  · split
    · rfl
    · dsimp only; split <;> simp

@[simp] theorem openHandle_controller (p : Proto) (s : State) : (openHandle p s).controller = s.controller := by
  obtain ⟨-, h⟩ | ⟨-, h⟩ := openHandle_cases p s
  · rw [h]; rfl
  · obtain ⟨l, h', -⟩ | ⟨l, e, h', -⟩ := openDevice_cases p s.nextOpen s.openDrawn <;> rw [h, h'] <;> rfl

@[simp] theorem closeHandle_controller (s : State) : (closeHandle s).controller = s.controller := by
  obtain ⟨-, h⟩ | ⟨-, h⟩ := closeHandle_cases s <;> rw [h] <;> rfl

/-! ### The transitions act on the controller's registers alone -/

theorem turnOn_controller_congr {s u : State} (h : u.controller = s.controller) :
    u.turnOn.controller = s.turnOn.controller :=
  congrArg (fun c : Controller => { c with isOn := true, level := 0, canTurnOn := false }) h

theorem turnOff_controller_congr {s u : State} (h : u.controller = s.controller) :
    u.turnOff.controller = s.turnOff.controller :=
  congrArg (fun c : Controller => { c with isOn := false, shallTurnOff := false }) h

theorem togglePower_controller_congr {s u : State} (h : u.controller = s.controller) :
    u.togglePower.controller = s.togglePower.controller := by
  have hon : u.isOn = s.isOn := congrArg Controller.isOn h
  unfold State.togglePower
  rw [hon]
  split
  · exact turnOff_controller_congr h
  · exact turnOn_controller_congr h

/-- A command's transition is made on the controller, or the send failed and the controller stands (R232, R233). -/
theorem sendThen_controller (cmd : Command) {k : State → State} {s : State}
    (hk : ∀ {u : State}, u.controller = s.controller → (k u).controller = (k s).controller) :
    (sendThen cmd k s).controller = s.controller ∨ (sendThen cmd k s).controller = (k s).controller := by
  obtain ⟨-, h⟩ | ⟨-, h⟩ := sendThen_cases cmd k s
  · exact .inr (by rw [h, done_controller]; exact hk (send_controller cmd s))
  · exact .inl (by rw [h, fail_controller, send_controller])

/-! ### What a host operation can do to the controller -/

/-- The states whose controller a host operation can leave behind: by PRESS POWER_TOGGLE, or by a branch of UPDATE. -/
inductive ControllerEffect (s : State) : State → Prop where
  | kept : ControllerEffect s s
  | toggled : ControllerEffect s s.togglePower
  | onTimerCleared : ControllerEffect s s.clearCanTurnOn
  | onTimerStarted (h : s.isOn = false) : ControllerEffect s s.startCanTurnOn
  | turnedOn (h : s.isOn = false) : ControllerEffect s s.startCanTurnOn.turnOn
  | offTimerCleared (g : Level) : ControllerEffect s (requestLevel g s).clearShallTurnOff
  | offTimerStarted (g : Level) (h : s.isOn = true) : ControllerEffect s (requestLevel g s).startShallTurnOff
  | turnedOff (g : Level) (h : s.isOn = true) : ControllerEffect s (requestLevel g s).startShallTurnOff.turnOff

theorem offBranch_controller (a : Int) {s : State} (hoff : s.isOn = false) :
    ∃ u, ControllerEffect s u ∧ (offBranch a s).controller = u.controller := by
  obtain ⟨-, h⟩ | ⟨-, -, h⟩ | ⟨-, -, h⟩ := offBranch_cases a s <;> rw [h]
  · exact ⟨_, .onTimerCleared, rfl⟩
  · exact ⟨_, .onTimerStarted hoff, rfl⟩
  · obtain hc | hc := sendThen_controller .powerToggle (s := s.startCanTurnOn) turnOn_controller_congr
    · exact ⟨_, .onTimerStarted hoff, hc⟩
    · exact ⟨_, .turnedOn hoff, hc⟩

theorem onBranch_controller (a : Int) {s : State} (hon : s.isOn = true) :
    ∃ u, ControllerEffect s u ∧ (onBranch a s).controller = u.controller := by
  unfold onBranch
  generalize tier s.cfg a = g
  obtain ⟨-, h⟩ | ⟨-, -, h⟩ | ⟨-, -, h⟩ := offTimer_cases a (requestLevel g s) <;> rw [h]
  · exact ⟨_, .offTimerCleared g, rfl⟩
  · exact ⟨_, .offTimerStarted g hon, rfl⟩
  · obtain hc | hc := sendThen_controller .powerToggle (s := (requestLevel g s).startShallTurnOff)
      turnOff_controller_congr
    · exact ⟨_, .offTimerStarted g hon, hc⟩
    · exact ⟨_, .turnedOff g hon, hc⟩

/-- Everything a host operation can do to the controller. -/
theorem HostEffect.controller {s t : State} (h : HostEffect s t) :
    ∃ u, ControllerEffect s u ∧ t.controller = u.controller := by
  cases h with
  | valid p sc => exact ⟨s, .kept, by simp⟩
  | encode p sc => exact ⟨s, .kept, by simp⟩
  | txopen p => exact ⟨s, .kept, by simp⟩
  | txsend p sc => exact ⟨s, .kept, by simp⟩
  | illegal => exact ⟨s, .kept, by simp⟩
  | waits => exact ⟨s, .kept, rfl⟩
  | txclose => exact ⟨s, .kept, by simp⟩
  | update a =>
    unfold updateBody
    split
    · exact onBranch_controller a ‹_›
    · rename_i hoff
      exact offBranch_controller a (Bool.eq_false_iff.mpr hoff)
  | toggle =>
    obtain hc | hc := sendThen_controller .powerToggle togglePower_controller_congr
    · exact ⟨s, .kept, hc⟩
    · exact ⟨_, .toggled, hc⟩
  | temperature cmd =>
    exact ⟨s, .kept, by simpa using sendThen_controller cmd (k := id) (s := s) id⟩

/-! ### Consequences -/

@[simp] theorem requestLevel_isOn (g : Level) (s : State) : (requestLevel g s).isOn = s.isOn := by
  obtain ⟨-, h⟩ | ⟨-, h⟩ := requestLevel_cases g s <;> simp [h]
@[simp] theorem requestLevel_level (g : Level) (s : State) : (requestLevel g s).level = s.level := by
  obtain ⟨-, h⟩ | ⟨-, h⟩ := requestLevel_cases g s <;> simp [h]
@[simp] theorem requestLevel_time (g : Level) (s : State) : (requestLevel g s).time = s.time := by
  obtain ⟨-, h⟩ | ⟨-, h⟩ := requestLevel_cases g s <;> simp [h]
@[simp] theorem requestLevel_rampFault (g : Level) (s : State) : (requestLevel g s).rampFault = s.rampFault := by
  obtain ⟨-, h⟩ | ⟨-, h⟩ := requestLevel_cases g s <;> simp [h]
@[simp] theorem requestLevel_rampErr (g : Level) (s : State) : (requestLevel g s).rampErr = s.rampErr := by
  obtain ⟨-, h⟩ | ⟨-, h⟩ := requestLevel_cases g s <;> simp [h]

/-- No host operation moves TIME or touches the ramp worker's registers (R27, R40, R340). -/
theorem ControllerEffect.frame {s u : State} (h : ControllerEffect s u) :
    u.time = s.time ∧ u.rampFault = s.rampFault ∧ u.rampErr = s.rampErr := by
  cases h <;> simp

/-- A host operation changes the level only by turning on, to 0 (R230). -/
theorem ControllerEffect.level {s u : State} (h : ControllerEffect s u) :
    u.level = s.level ∨ (s.isOn = false ∧ u.isOn = true ∧ u.level = 0) := by
  cases h with
  | toggled =>
    unfold State.togglePower
    split
    · exact .inl rfl
    · rename_i hoff
      exact .inr ⟨Bool.eq_false_iff.mpr hoff, rfl, rfl⟩
  | turnedOn h => exact .inr ⟨h, rfl, rfl⟩
  | _ => exact .inl (by simp)

theorem HostEffect.frame {s t : State} (h : HostEffect s t) :
    t.time = s.time ∧ t.rampFault = s.rampFault ∧ t.rampErr = s.rampErr := by
  obtain ⟨u, hu, hc⟩ := h.controller
  obtain ⟨htime, hfault, herr⟩ := hu.frame
  exact ⟨(congrArg Controller.time hc).trans htime, (congrArg Controller.rampFault hc).trans hfault,
    (congrArg Controller.rampErr hc).trans herr⟩

theorem HostEffect.level {s t : State} (h : HostEffect s t) :
    t.level = s.level ∨ (s.isOn = false ∧ t.isOn = true ∧ t.level = 0) := by
  obtain ⟨u, hu, hc⟩ := h.controller
  have hlevel : t.level = u.level := congrArg Controller.level hc
  have hon : t.isOn = u.isOn := congrArg Controller.isOn hc
  rw [hlevel, hon]
  exact hu.level

end Sys2Proof.Machine

namespace Sys2Proof.Proofs

open Sys2Proof.Machine

/-- Settles O53: a host operation and a press leave TIME, and a tick is TIME plus one. -/
theorem timeMovesOnlyByTick : Obligations.TimeMovesOnlyByTick := by
  unfold Obligations.TimeMovesOnlyByTick
  intro s t h
  obtain ⟨-, he⟩ | ⟨-, -, rfl⟩ | ⟨-, hr, rfl⟩ := step_cases h
  · obtain ⟨htime, -⟩ := he.frame
    exact .inl (by simpa using htime)
  · obtain ⟨-, -, htime, -⟩ := rampPress_frame (s.takeTurn .internal)
    exact .inl (by simpa using htime)
  · obtain ⟨hp, hlt⟩ := tickReady_iff.mp hr
    exact .inr ⟨by simp, hp, hlt, tick_takeTurn s .internal⟩

/-- Settles O54: a press moves the level one up, and of the host operations only a turn-on writes it. -/
theorem levelChanges : Obligations.LevelChanges := by
  unfold Obligations.LevelChanges
  intro s t h hne
  obtain ⟨-, he⟩ | ⟨hn, hp, rfl⟩ | ⟨-, -, rfl⟩ := step_cases h
  · obtain hl | hl := he.level
    · exact absurd (by simpa using hl) hne
    · exact .inr (by simpa using hl)
  · obtain hl | hl := rampPress_level (s.takeTurn .internal)
    · exact absurd (by simpa using hl) hne
    · exact .inl ⟨hn, hp, by simpa using hl⟩
  · exact absurd (by simp) hne

/-- Settles O55, agent by agent: the host's operations leave RAMP_FAULT and RAMP_ERR, the internal steps ERR and V. -/
theorem faultStickyErrHostOnly : Obligations.FaultStickyErrHostOnly := by
  unfold Obligations.FaultStickyErrHostOnly
  intro s t h
  obtain ⟨hn, he⟩ | ⟨hn, -, rfl⟩ | ⟨hn, -, rfl⟩ := step_cases h
  · obtain ⟨-, hfault, herr⟩ := he.frame
    simp only [dropRequest_rampFault, dropRequest_rampErr, takeTurn_rampFault, takeTurn_rampErr] at hfault herr
    exact ⟨fun hf => hfault.trans hf, by simp [hn], fun _ => ⟨hfault, herr⟩⟩
  · obtain ⟨-, -, -, herr, hv, hsticky⟩ := rampPress_frame (s.takeTurn .internal)
    exact ⟨by simpa using hsticky, fun _ => ⟨by simpa using herr, by simpa using hv⟩, by simp [hn]⟩
  · simp [hn]

end Sys2Proof.Proofs
end

section
/-!
SUPPORT. The transport's view of the state, and what a step can do to it.
-/

namespace Sys2Proof.Machine

/-- The handle, TXLOG and the edge buffer, with the configuration they are read with (R29, R30, R32 to R34, R45). -/
structure Transport where
  cfg : Config
  txOpen : Bool
  txProto : Proto
  txCarrier : Word
  txlog : List Event
  eb : List Edge
  elen : BitVec 10

/-- The transport's part of the state. -/
def State.transport (s : State) : Transport where
  cfg := s.cfg
  txOpen := s.txOpen
  txProto := s.txProto
  txCarrier := s.txCarrier
  txlog := s.txlog
  eb := s.eb
  elen := s.elen

/-! ### The updates that leave the transport alone -/

@[simp] theorem fail_transport (s : State) (e : Err) : (s.fail e).transport = s.transport := rfl
@[simp] theorem done_transport (s : State) : s.done.transport = s.transport := rfl
@[simp] theorem rampFail_transport (s : State) (e : Err) : (s.rampFail e).transport = s.transport := rfl
@[simp] theorem dropRequest_transport (s : State) : s.dropRequest.transport = s.transport := rfl
@[simp] theorem turnOn_transport (s : State) : s.turnOn.transport = s.transport := rfl
@[simp] theorem turnOff_transport (s : State) : s.turnOff.transport = s.transport := rfl
@[simp] theorem stepLevel_transport (s : State) : s.stepLevel.transport = s.transport := rfl
@[simp] theorem pressDone_transport (s : State) : s.pressDone.transport = s.transport := rfl
@[simp] theorem tick_transport (s : State) : (tick s).transport = s.transport := rfl

@[simp] theorem takeTurn_transport (s : State) (u : Turn) : (s.takeTurn u).transport = s.transport := by
  rw [takeTurn_eq]; rfl

@[simp] theorem togglePower_transport (s : State) : s.togglePower.transport = s.transport := by
  unfold State.togglePower; split <;> rfl

/-! What may stand before a send leaves the device's next answer too: the request's leaving its queue, and of an UPDATE
the timers and the level request. -/

@[simp] theorem dropRequest_nextWrite (s : State) : s.dropRequest.nextWrite = s.nextWrite := rfl
@[simp] theorem startCanTurnOn_transport (s : State) : s.startCanTurnOn.transport = s.transport := by
  unfold State.startCanTurnOn; split <;> rfl
@[simp] theorem startCanTurnOn_nextWrite (s : State) : s.startCanTurnOn.nextWrite = s.nextWrite := by
  unfold State.startCanTurnOn; split <;> rfl
@[simp] theorem startShallTurnOff_transport (s : State) : s.startShallTurnOff.transport = s.transport := by
  unfold State.startShallTurnOff; split <;> rfl
@[simp] theorem startShallTurnOff_nextWrite (s : State) : s.startShallTurnOff.nextWrite = s.nextWrite := by
  unfold State.startShallTurnOff; split <;> rfl
@[simp] theorem requestLevel_transport (g : Level) (s : State) : (requestLevel g s).transport = s.transport := by
  obtain ⟨-, h⟩ | ⟨-, h⟩ := requestLevel_cases g s <;> rw [h]
  rfl
@[simp] theorem requestLevel_nextWrite (g : Level) (s : State) : (requestLevel g s).nextWrite = s.nextWrite := by
  obtain ⟨-, h⟩ | ⟨-, h⟩ := requestLevel_cases g s <;> rw [h]
  rfl

/-! ### What a step can do to the transport -/

/-- The event is one of the handle's, not of a write, and is stamped `now` (R204). -/
def Event.OfHandle (now : Nat) : Event → Prop
  | .opened t | .carrier t _ | .modePulse t | .closed t => t = now
  | .frame _ _ _ | .short _ _ _ _ => False

/-- The frame of `(p, sc)` stands in EB, ELEN counts it, and the events `l` have been logged. -/
def Transport.storeAndLog (a : Transport) (p : Proto) (sc : Scancode) (l : List Event) : Transport :=
  { a with eb := encodeFrame a.cfg p sc, elen := BitVec.ofNat 10 (encodeFrame a.cfg p sc).length,
           txlog := a.txlog ++ l }

/-- `(p, sc)` passes the checks before EB is written: a valid scancode whose frame fits (R170, R196). -/
structure PassesChecks (c : Config) (p : Proto) (sc : Scancode) : Prop where
  valid : isValid c p sc = true
  fits : tooLong c p (encodeFrame c p sc) = false

/-- The handle is open and bound to `p`, which every write needs (R197, R205). -/
structure Transport.BoundTo (a : Transport) (p : Proto) : Prop where
  opened : a.txOpen = true
  proto : p = a.txProto

/-- What a step at TIME `now` can do to the transport, `w` being the byte count the device reports to its write. -/
inductive TransportEffect (now w : Nat) (a : Transport) : Transport → Prop where
  | kept : TransportEffect now w a a
  | encoded (p : Proto) (sc : Scancode) (henc : PassesChecks a.cfg p sc) :
      TransportEffect now w a (a.storeAndLog p sc [])
  | sent (p : Proto) (sc : Scancode) (henc : PassesChecks a.cfg p sc) (hb : a.BoundTo p)
      (hw : w = 4 * (encodeFrame a.cfg p sc).length) :
      TransportEffect now w a (a.storeAndLog p sc [.frame now p (encodeFrame a.cfg p sc)])
  | cutShort (p : Proto) (sc : Scancode) (henc : PassesChecks a.cfg p sc) (hb : a.BoundTo p)
      (hw : w ≠ 4 * (encodeFrame a.cfg p sc).length) :
      TransportEffect now w a (a.storeAndLog p sc [.short now p (encodeFrame a.cfg p sc) w])
  | opened (p : Proto) (l : List Event) (hl : ∀ e ∈ l, e.OfHandle now) :
      TransportEffect now w a
        { a with txOpen := true, txProto := p, txCarrier := (a.cfg.row p).carrierHz, txlog := a.txlog ++ l }
  | openFailed (l : List Event) (hl : ∀ e ∈ l, e.OfHandle now) :
      TransportEffect now w a { a with txlog := a.txlog ++ l }
  | closed (p : Proto) (hz : Word) :
      TransportEffect now w a
        { a with txOpen := false, txProto := p, txCarrier := hz, txlog := a.txlog ++ [.closed now] }

/-- The effect of an operation from `s` to `t`, with the TIME and the device's answer `s` holds. -/
abbrev OperationTransport (s t : State) : Prop := TransportEffect s.time s.nextWrite s.transport t.transport

theorem encodeOp_transport (p : Proto) (sc : Scancode) (s : State) : OperationTransport s (encodeOp p sc s) := by
  unfold encodeOp
  split
  · exact .kept
  · split
    · exact .kept
    · rename_i hv hl
      have henc : PassesChecks s.cfg p sc := ⟨by simpa using hv, by simpa using hl⟩
      have hst : (s.storeFrame (encodeFrame s.cfg p sc)).done.transport = s.transport.storeAndLog p sc [] := by
        simp [State.transport, Transport.storeAndLog]
      unfold OperationTransport
      rw [hst]
      exact .encoded p sc henc

theorem sendFrame_transport {p : Proto} {s : State} (hb : s.transport.BoundTo p) (sc : Scancode) :
    OperationTransport s (sendFrame p sc s).2 := by
  obtain ⟨-, h⟩ | ⟨-, -, h⟩ | ⟨hv, hl, hw, h⟩ | ⟨hv, hl, hw, h⟩ := sendFrame_cases p sc s <;> rw [h]
  · exact .kept
  · exact .kept
  · exact .sent p sc ⟨hv, hl⟩ hb (by rw [hw, encodeFrame_length]; rfl)
  · exact .cutShort p sc ⟨hv, hl⟩ hb (by rw [encodeFrame_length]; exact hw)

theorem txsendOp_transport (p : Proto) (sc : Scancode) (s : State) : OperationTransport s (txsendOp p sc s) := by
  unfold txsendOp
  split
  · exact .kept
  · split
    · exact .kept
    · rename_i ho hp
      have hb : s.transport.BoundTo p := ⟨by rwa [Bool.not_eq_true, Bool.not_eq_false'] at ho, not_not.mp hp⟩
      dsimp only
      split <;> exact sendFrame_transport hb sc

theorem send_transport (cmd : Command) (s : State) : OperationTransport s (send cmd s).2 := by
  obtain ⟨-, h⟩ | ⟨-, -, h⟩ | ⟨ho, hp, h⟩ := send_cases cmd s <;> rw [h]
  · exact .kept
  · exact .kept
  · exact sendFrame_transport ⟨ho, hp.symm⟩ _

theorem sendThen_transport (cmd : Command) {k : State → State} (hk : ∀ u, (k u).transport = u.transport) (s : State) :
    OperationTransport s (sendThen cmd k s) := by
  obtain ⟨-, h⟩ | ⟨-, h⟩ := sendThen_cases cmd k s
  · simpa [OperationTransport, h, hk] using send_transport cmd s
  · simpa [OperationTransport, h] using send_transport cmd s

theorem openHandle_transport (p : Proto) (s : State) : OperationTransport s (openHandle p s) := by
  obtain ⟨-, h⟩ | ⟨-, h⟩ := openHandle_cases p s <;> rw [h]
  · exact .kept
  · obtain ⟨l, h', hl⟩ | ⟨l, e, h', -, hl⟩ := openDevice_cases p s.nextOpen s.openDrawn <;> rw [h']
    · exact .opened p l (by simp [hl, Event.OfHandle])
    · refine .openFailed l fun ev hev => ?_
      obtain rfl | rfl | rfl := hl ev hev <;> rfl

theorem closeHandle_transport (s : State) : OperationTransport s (closeHandle s) := by
  obtain ⟨-, h⟩ | ⟨-, h⟩ := closeHandle_cases s <;> rw [h]
  · exact .closed _ _
  · exact .kept

theorem offBranch_transport (a : Int) (s : State) : OperationTransport s (offBranch a s) := by
  obtain ⟨-, h⟩ | ⟨-, -, h⟩ | ⟨-, -, h⟩ := offBranch_cases a s <;> rw [h]
  · exact .kept
  · simpa [OperationTransport] using TransportEffect.kept
  · simpa [OperationTransport] using sendThen_transport .powerToggle turnOn_transport s.startCanTurnOn

theorem offTimer_transport (a : Int) (s : State) : OperationTransport s (offTimer a s) := by
  obtain ⟨-, h⟩ | ⟨-, -, h⟩ | ⟨-, -, h⟩ := offTimer_cases a s <;> rw [h]
  · exact .kept
  · simpa [OperationTransport] using TransportEffect.kept
  · simpa [OperationTransport] using sendThen_transport .powerToggle turnOff_transport s.startShallTurnOff

theorem updateBody_transport (a : Int) (s : State) : OperationTransport s (updateBody a s) := by
  unfold updateBody
  split
  · simpa [OperationTransport, onBranch] using offTimer_transport a (requestLevel (tier s.cfg a) s)
  · exact offBranch_transport a s

/-- Everything a host operation can do to the transport. -/
theorem HostEffect.transport {s t : State} (h : HostEffect s t) : OperationTransport s t := by
  cases h with
  | valid p sc => exact .kept
  | encode p sc => exact encodeOp_transport p sc s
  | txopen p => exact openHandle_transport p s
  | txsend p sc => exact txsendOp_transport p sc s
  | illegal => exact .kept
  | waits => exact .kept
  | txclose => exact closeHandle_transport s
  | update a => exact updateBody_transport a s
  | toggle => exact sendThen_transport .powerToggle togglePower_transport s
  | temperature cmd => exact sendThen_transport cmd (fun _ => rfl) s

theorem rampPress_transport (s : State) : OperationTransport s (rampPress s) := by
  obtain ⟨-, h⟩ | ⟨-, h⟩ := rampPress_cases s <;> rw [h] <;> exact send_transport .inverterPower s

/-- Everything a step can do to the transport; the device's answer is the draw once the turn is taken (log 2, log 3). -/
theorem step_transport {s t : State} (h : step s = .next t) :
    TransportEffect s.time (s.takeTurn (nextTurn s)).nextWrite s.transport t.transport := by
  obtain ⟨hn, he⟩ | ⟨hn, -, rfl⟩ | ⟨-, -, rfl⟩ := step_cases h
  · rw [hn]; simpa [OperationTransport] using he.transport
  · rw [hn]; simpa [OperationTransport] using rampPress_transport (s.takeTurn .internal)
  · simpa using TransportEffect.kept

/-! ### Consequences -/

theorem TransportEffect.cfg {now w : Nat} {a b : Transport} (h : TransportEffect now w a b) : b.cfg = a.cfg := by
  cases h <;> rfl

/-- EB and ELEN stand, or hold one frame that passed the checks (R61, R170, R196). -/
theorem TransportEffect.buffer {now w : Nat} {a b : Transport} (h : TransportEffect now w a b) :
    (b.eb = a.eb ∧ b.elen = a.elen) ∨
      ∃ p sc, PassesChecks a.cfg p sc ∧ b.eb = encodeFrame a.cfg p sc ∧
        b.elen = BitVec.ofNat 10 (encodeFrame a.cfg p sc).length := by
  cases h with
  | encoded p sc henc => exact .inr ⟨p, sc, henc, rfl, rfl⟩
  | sent p sc henc => exact .inr ⟨p, sc, henc, rfl, rfl⟩
  | cutShort p sc henc => exact .inr ⟨p, sc, henc, rfl, rfl⟩
  | kept => exact .inl ⟨rfl, rfl⟩
  | opened => exact .inl ⟨rfl, rfl⟩
  | openFailed => exact .inl ⟨rfl, rfl⟩
  | closed => exact .inl ⟨rfl, rfl⟩

/-- An open handle's carrier stays the one PT gives its protocol (R34). -/
theorem TransportEffect.handle {now w : Nat} {a b : Transport} (h : TransportEffect now w a b)
    (ha : a.txOpen = true → a.txCarrier = (a.cfg.row a.txProto).carrierHz) :
    b.txOpen = true → b.txCarrier = (b.cfg.row b.txProto).carrierHz := by
  cases h with
  | opened => exact fun _ => rfl
  | closed => exact nofun
  | _ => exact ha

/-- What an event a step at TIME `now` appends must be: stamped, genuine, and, where it records a write, one of the
bound protocol under the device's count `w` (R191, R195, R198, R199, R204). -/
structure Transport.Logs (a : Transport) (now w : Nat) (e : Event) : Prop where
  stamped : e.time = now
  genuine : e.Genuine a.cfg
  frame : ∀ p l, e = .frame now p l → a.BoundTo p ∧ w = 4 * l.length
  short : ∀ p l n, e = .short now p l n → a.BoundTo p ∧ n = w ∧ n ≠ 4 * l.length

theorem Transport.logs_of_ofHandle (a : Transport) {now : Nat} (w : Nat) {e : Event} (h : e.OfHandle now) :
    a.Logs now w e := by
  cases e with
  | frame => exact h.elim
  | short => exact h.elim
  | _ => exact ⟨h, trivial, nofun, nofun⟩

theorem Transport.logs_frame {a : Transport} {now w : Nat} {p : Proto} {sc : Scancode} (henc : PassesChecks a.cfg p sc)
    (hb : a.BoundTo p) (hw : w = 4 * (encodeFrame a.cfg p sc).length) :
    a.Logs now w (.frame now p (encodeFrame a.cfg p sc)) where
  stamped := rfl
  genuine := ⟨sc, henc.valid, rfl⟩
  frame := by rintro _ _ ⟨⟩; exact ⟨hb, hw⟩
  short := nofun

theorem Transport.logs_short {a : Transport} {now w : Nat} {p : Proto} {sc : Scancode} (henc : PassesChecks a.cfg p sc)
    (hb : a.BoundTo p) (hw : w ≠ 4 * (encodeFrame a.cfg p sc).length) :
    a.Logs now w (.short now p (encodeFrame a.cfg p sc) w) where
  stamped := rfl
  genuine := ⟨sc, henc.valid, rfl, hw⟩
  frame := nofun
  short := by rintro _ _ _ ⟨⟩; exact ⟨hb, rfl, hw⟩

/-- TXLOG is append-only, and every event appended is as it must be (R45). -/
theorem TransportEffect.log {now w : Nat} {a b : Transport} (h : TransportEffect now w a b) :
    ∃ new, b.txlog = a.txlog ++ new ∧ ∀ e ∈ new, a.Logs now w e := by
  cases h with
  | kept => exact ⟨[], by simp, by simp⟩
  | encoded => exact ⟨[], rfl, by simp⟩
  | sent p sc henc hb hw => exact ⟨_, rfl, by simpa using Transport.logs_frame henc hb hw⟩
  | cutShort p sc henc hb hw => exact ⟨_, rfl, by simpa using Transport.logs_short henc hb hw⟩
  | opened p l hl => exact ⟨l, rfl, fun e he => a.logs_of_ofHandle w (hl e he)⟩
  | openFailed l hl => exact ⟨l, rfl, fun e he => a.logs_of_ofHandle w (hl e he)⟩
  | closed => exact ⟨[.closed now], rfl, by simpa using a.logs_of_ofHandle w (e := .closed now) rfl⟩

/-- A step leaves EB and ELEN, or stores one frame that passed the checks. -/
theorem step_buffer {s t : State} (h : step s = .next t) :
    (t.eb = s.eb ∧ t.elen = s.elen) ∨
      ∃ p sc, PassesChecks s.cfg p sc ∧ t.eb = (s.storeFrame (encodeFrame s.cfg p sc)).eb ∧
        t.elen = (s.storeFrame (encodeFrame s.cfg p sc)).elen :=
  (step_transport h).buffer

theorem step_cfg {s t : State} (h : step s = .next t) : t.cfg = s.cfg := (step_transport h).cfg

end Sys2Proof.Machine

namespace Sys2Proof.Proofs

open Sys2Proof.Machine

/-- Settles O51: what a step appends to TXLOG, read off its effect on the transport. -/
theorem stepAppendsGenuineEvents : Obligations.StepAppendsGenuineEvents := by
  unfold Obligations.StepAppendsGenuineEvents
  intro s t h
  obtain ⟨new, htx, hnew⟩ := (step_transport h).log
  refine ⟨new, htx, fun e he => ?_⟩
  obtain ⟨htime, hgen, hframe, hshort⟩ := hnew e he
  refine ⟨htime, hgen, fun p l hf => ?_, fun p l w hw => ?_⟩
  · obtain ⟨⟨ho, hp⟩, hcount⟩ := hframe p l hf
    exact ⟨ho, hp, hcount⟩
  · obtain ⟨⟨ho, hp⟩, hcount, hne⟩ := hshort p l w hw
    exact ⟨ho, hp, hcount, hne⟩

/-- Settles O57: the frame a step stores is counted by ELEN and read back element by element. -/
theorem bufferHoldsWholeFrame : Obligations.BufferHoldsWholeFrame := by
  unfold Obligations.BufferHoldsWholeFrame
  intro s t h
  obtain hkept | ⟨p, sc, henc, heb, helen⟩ := step_buffer h
  · exact .inl hkept
  · refine .inr ⟨p, sc, henc.valid, ?_, fun i hi => ?_⟩
    · rw [helen]; exact (storeFrame_bufferOk henc.fits).counted.symm
    · simp [readEdge, heb, hi]

end Sys2Proof.Proofs
end

section
/-!
SUPPORT. The invariant of the block (Safety.lean), in the parts the two views of the state carry.
-/

namespace Sys2Proof.Machine

/-- The clauses of the invariant about the controller: the clock, the latches and the ramp. -/
structure State.ControllerOk (s : State) : Prop where
  clock : s.ClockOk
  latches : s.LatchesOk
  ramp : s.RampOk

/-- The clauses about the controller depend on its registers alone. -/
theorem controllerOk_congr {s t : State} (h : t.controller = s.controller) (hs : s.ControllerOk) : t.ControllerOk := by
  simp only [State.controller, Controller.mk.injEq] at h
  obtain ⟨hcfg, hon, hcan, hshall, -, -, -, hchange, honSince, hoffSince, hrem, hnext, htime⟩ := h
  obtain ⟨⟨hb, h1, h2, h3⟩, ⟨hoff, hon'⟩, hramp⟩ := hs
  refine ⟨⟨?_, ?_, ?_, ?_⟩, ⟨?_, ?_⟩, ?_⟩
  · rwa [htime, hcfg]
  · rwa [htime, hchange]
  · rwa [htime, honSince]
  · rwa [htime, hoffSince]
  · rwa [hon, hshall]
  · rwa [hon, hcan]
  · unfold State.RampOk; rwa [htime, hcfg, hchange, hrem, hnext]

namespace State.ControllerOk

variable {s : State}

/-! ### The controller's transitions keep the clauses -/

theorem turnOn (h : s.ControllerOk) : s.turnOn.ControllerOk where
  clock := ⟨h.clock.bounded, h.clock.changePast, h.clock.onPast, h.clock.offPast⟩
  latches := ⟨nofun, fun _ => rfl⟩
  ramp := h.ramp

theorem turnOff (h : s.ControllerOk) : s.turnOff.ControllerOk where
  clock := ⟨h.clock.bounded, h.clock.changePast, h.clock.onPast, h.clock.offPast⟩
  latches := ⟨fun _ => rfl, nofun⟩
  ramp := h.ramp

theorem togglePower (h : s.ControllerOk) : s.togglePower.ControllerOk := by
  unfold State.togglePower
  split
  · exact h.turnOff
  · exact h.turnOn

theorem clearCanTurnOn (h : s.ControllerOk) : s.clearCanTurnOn.ControllerOk where
  clock := ⟨h.clock.bounded, h.clock.changePast, h.clock.onPast, h.clock.offPast⟩
  latches := ⟨h.latches.offState, fun _ => rfl⟩
  ramp := h.ramp

theorem clearShallTurnOff (h : s.ControllerOk) : s.clearShallTurnOff.ControllerOk where
  clock := ⟨h.clock.bounded, h.clock.changePast, h.clock.onPast, h.clock.offPast⟩
  latches := ⟨fun _ => rfl, h.latches.onState⟩
  ramp := h.ramp

/-- The on timer is started in the Off state, whose latch it is (R223, R231). -/
theorem startCanTurnOn (h : s.ControllerOk) (hoff : s.isOn = false) : s.startCanTurnOn.ControllerOk := by
  unfold State.startCanTurnOn
  split
  · exact h
  · exact {
      clock := ⟨h.clock.bounded, h.clock.changePast, le_rfl, h.clock.offPast⟩
      latches := ⟨h.latches.offState, fun hon => absurd hon (Bool.eq_false_iff.mp hoff)⟩
      ramp := h.ramp }

/-- The off timer is started in the On state, whose latch it is (R225, R231). -/
theorem startShallTurnOff (h : s.ControllerOk) (hon : s.isOn = true) : s.startShallTurnOff.ControllerOk := by
  unfold State.startShallTurnOff
  split
  · exact h
  · exact {
      clock := ⟨h.clock.bounded, h.clock.changePast, h.clock.onPast, le_rfl⟩
      latches := ⟨fun hoff => absurd hon (Bool.eq_false_iff.mp hoff), h.latches.onState⟩
      ramp := h.ramp }

/-- A ramp starts now with at most four presses, so the last is due at most 3 * T_PRESS from now (R226, R257). -/
theorem armRamp (h : s.ControllerOk) (g : Level) : (s.armRamp g).ControllerOk where
  clock := ⟨h.clock.bounded, le_rfl, h.clock.onPast, h.clock.offPast⟩
  latches := ⟨h.latches.offState, h.latches.onState⟩
  ramp := fun _ => by
    have hcount : (pressCount g s.level).val - 1 ≤ 3 :=
      Nat.sub_le_of_le_add (Nat.le_of_lt_succ (pressCount g s.level).isLt)
    exact ⟨le_rfl, Nat.add_le_add_left (Nat.mul_le_mul_right _ hcount) _⟩

theorem requestLevel (h : s.ControllerOk) (g : Level) : (requestLevel g s).ControllerOk := by
  obtain ⟨-, hr⟩ | ⟨-, hr⟩ := requestLevel_cases g s <;> rw [hr]
  · exact h.armRamp g
  · exact h

/-! ### The internal steps keep the clauses -/

/-- TIME passes no press that is not due (R255, R256). -/
theorem tick (h : s.ControllerOk) (hr : tickReady s = true) : (tick s).ControllerOk := by
  obtain ⟨hp, hlt⟩ := tickReady_iff.mp hr
  refine ⟨⟨hlt, h.clock.changePast.trans (Nat.le_succ _), h.clock.onPast.trans (Nat.le_succ _),
    h.clock.offPast.trans (Nat.le_succ _)⟩, ⟨h.latches.offState, h.latches.onState⟩, fun hrem => ?_⟩
  obtain ⟨hnext, hlast⟩ := h.ramp hrem
  exact ⟨Nat.lt_of_le_of_ne hnext fun heq => hp ⟨hrem, heq⟩, hlast⟩

/-- Counting one press off and putting the next T_PRESS later leaves the last where it was (R251). -/
theorem pressDone (h : s.ControllerOk) : s.pressDone.ControllerOk where
  clock := ⟨h.clock.bounded, h.clock.changePast, h.clock.onPast, h.clock.offPast⟩
  latches := ⟨h.latches.offState, h.latches.onState⟩
  ramp := fun hrem => by
    simp only [pressDone_rampRemaining, pressDone_rampNext, pressDone_time, pressDone_cfg,
      pressDone_lastPowerChange] at hrem ⊢
    obtain ⟨hnext, hlast⟩ := h.ramp (by omega)
    obtain ⟨k, hk⟩ : ∃ k, s.rampRemaining.val = k + 2 := ⟨s.rampRemaining.val - 2, by omega⟩
    simp only [hk, Nat.add_one_sub_one, Nat.succ_mul] at hlast ⊢
    omega

theorem stepLevel (h : s.ControllerOk) : s.stepLevel.ControllerOk where
  clock := ⟨h.clock.bounded, h.clock.changePast, h.clock.onPast, h.clock.offPast⟩
  latches := ⟨h.latches.offState, h.latches.onState⟩
  ramp := h.ramp

theorem rampFail (h : s.ControllerOk) (e : Err) : (s.rampFail e).ControllerOk where
  clock := ⟨h.clock.bounded, h.clock.changePast, h.clock.onPast, h.clock.offPast⟩
  latches := ⟨h.latches.offState, h.latches.onState⟩
  ramp := h.ramp

theorem rampPress (h : s.ControllerOk) : (rampPress s).ControllerOk := by
  have hsend : (send .inverterPower s).2.ControllerOk := controllerOk_congr (send_controller _ s) h
  obtain ⟨-, hr⟩ | ⟨-, hr⟩ := rampPress_cases s <;> rw [hr]
  · exact hsend.stepLevel.pressDone
  · exact (hsend.rampFail _).pressDone

/-! ### Every step keeps the clauses -/

theorem effect (h : s.ControllerOk) {u : State} (hu : ControllerEffect s u) : u.ControllerOk := by
  cases hu with
  | kept => exact h
  | toggled => exact h.togglePower
  | onTimerCleared => exact h.clearCanTurnOn
  | onTimerStarted hoff => exact h.startCanTurnOn hoff
  | turnedOn hoff => exact (h.startCanTurnOn hoff).turnOn
  | offTimerCleared g => exact (h.requestLevel g).clearShallTurnOff
  | offTimerStarted g hon => exact (h.requestLevel g).startShallTurnOff (by simpa using hon)
  | turnedOff g hon => exact ((h.requestLevel g).startShallTurnOff (by simpa using hon)).turnOff

theorem hostEffect (h : s.ControllerOk) {t : State} (he : HostEffect s t) : t.ControllerOk := by
  obtain ⟨u, hu, hc⟩ := he.controller
  exact controllerOk_congr hc (h.effect hu)

theorem step (h : s.ControllerOk) {t : State} (hs : step s = .next t) : t.ControllerOk := by
  have hturn (u : Turn) : (s.takeTurn u).ControllerOk := controllerOk_congr (takeTurn_controller s u) h
  obtain ⟨-, he⟩ | ⟨-, -, rfl⟩ | ⟨-, hr, rfl⟩ := step_cases hs
  · exact (controllerOk_congr (dropRequest_controller _) (hturn .host)).hostEffect he
  · exact (hturn .internal).rampPress
  · exact (hturn .internal).tick (by simpa using hr)

end State.ControllerOk

theorem step_bufferOk {s t : State} (h : step s = .next t) (hs : s.BufferOk) : t.BufferOk := by
  have hcfg := step_cfg h
  obtain ⟨heb, helen⟩ | ⟨p, sc, henc, heb, helen⟩ := step_buffer h
  · exact bufferOk_congr hs heb helen hcfg
  · exact bufferOk_congr (storeFrame_bufferOk henc.fits) heb helen hcfg

theorem step_handleOk {s t : State} (h : step s = .next t) (hs : s.HandleOk) : t.HandleOk :=
  (step_transport h).handle hs

/-- Every step keeps the invariant: the transport's clauses by its effect, the controller's by theirs. -/
theorem State.Inv.step {s t : State} (hs : s.Inv) (h : step s = .next t) : t.Inv :=
  have hc := State.ControllerOk.step ⟨hs.clock, hs.latches, hs.ramp⟩ h
  ⟨step_bufferOk h hs.buffer, hc.clock, hc.latches, step_handleOk h hs.handle, hc.ramp⟩

/-! ### Reset -/

/-- Reset meets the invariant under any configuration: nothing runs, and the handle is closed. -/
theorem resetWith_inv (c : Config) : (State.resetWith c).Inv where
  buffer := resetWith_bufferOk c
  clock := ⟨Nat.zero_le _, le_rfl, le_rfl, le_rfl⟩
  latches := ⟨fun _ => rfl, fun _ => rfl⟩
  handle := nofun
  ramp := nofun

/-- The NEC mask admits every scancode of 16 bits under zeros (R326; log 12). -/
theorem and_not_necMask (x : BitVec 16) : x.setWidth 32 &&& ~~~0x0000FFFF#32 = 0#32 := by
  have hmask : 0x0000FFFF#32 = (BitVec.allOnes 16).setWidth 32 := by decide
  rw [hmask]
  ext i hi
  simp only [BitVec.getElem_and, BitVec.getElem_not, BitVec.getElem_setWidth, BitVec.getLsbD_allOnes,
    BitVec.getElem_zero]
  cases hx : x.getLsbD i with
  | false => rfl
  | true => simp [BitVec.lt_of_getLsbD hx]

/-- The default configuration meets R326, whatever its four open scancodes are. -/
theorem default_ok : Config.default.Ok where
  typed := ⟨rfl, rfl, rfl, rfl, rfl, rfl, rfl⟩
  scancodesValid := fun cmd => by
    have hmask : ∀ x : BitVec 16, isValid Config.default .nec (x.setWidth 32) = true := fun x => by
      simp only [isValid, maskValid, Bool.and_true, beq_iff_eq]
      exact and_not_necMask x
    cases cmd <;> exact hmask _
  edgesFit := fun p => by cases p <;> decide
  lowLeMid := by decide
  midLeHigh := by decide
  rampBeforeDebounce := by decide
  ticksPositive := by decide

end Sys2Proof.Machine

namespace Sys2Proof.Proofs

open Sys2Proof.Machine

/-- Settles O49: the buffer and the handle by what a step does to the transport, the clock, the latches and the ramp by
what it does to the controller. -/
theorem stepKeepsInvariant : Obligations.StepKeepsInvariant := by
  unfold Obligations.StepKeepsInvariant
  exact fun s t hs h => hs.step h

/-- Settles O47, register by register. -/
theorem resetValues : Obligations.ResetValues := by
  unfold Obligations.ResetValues
  rintro s rfl
  exact ⟨rfl, rfl, rfl, rfl, rfl, rfl, rfl, rfl, rfl, rfl, rfl, rfl, rfl, rfl, rfl, rfl, rfl, rfl, rfl, rfl⟩

/-- Settles O48: the invariant holds of reset under any configuration, and the default one meets R326. -/
theorem resetMeetsInvariant : Obligations.ResetMeetsInvariant := by
  unfold Obligations.ResetMeetsInvariant
  refine ⟨resetWith_inv _, default_ok, ?_⟩
  rintro z rfl
  exact ⟨rfl, rfl, rfl, rfl, rfl, rfl, rfl, rfl, rfl⟩

end Sys2Proof.Proofs
end

section
/-!
SUPPORT. A request at the host's turn, and a ramp with no request in its way: the ticks up to a press, the press, and
the presses one after the other (20_memory.md R70 to R76; 43_controller.md R250, R251).
-/

namespace Sys2Proof.Machine

open Sys2Proof.Claims

/-! ### The host's turn -/

/-- A request that names an operation is performed once it has left the queue (R70, R100). -/
theorem runRequest_of_decode {s : State} {w : Request} {rest : List Request} {i : Instr}
    (hq : s.requests = w :: rest) (hd : decode w = .ok i) : runRequest s = exec i { s with requests := rest } := by
  simp [runRequest, State.dropRequest, hq, hd]

/-! ### Runs -/

/-- A run, then another from where it ended. -/
theorem core_run_add {s u t : State} {j k : Nat} (hj : Host.Core.run Sys2Proof.core j s = .next u)
    (hk : Host.Core.run Sys2Proof.core k u = .next t) : Host.Core.run Sys2Proof.core (j + k) s = .next t := by
  induction j generalizing s with
  | zero => cases hj; rwa [Nat.zero_add]
  | succ j ih =>
    replace hj := (Host.Core.run.eq_2 Sys2Proof.core s j).symm.trans hj
    split at hj
    · rename_i s' hs
      rw [Nat.succ_add]
      exact core_run_succ hs (ih hj)
    · cases hj
    · cases hj

/-! ### The internal side alone -/

/-- With no request the internal side moves (R292). -/
theorem nextTurn_of_noRequest {s : State} (hq : s.requests = []) : nextTurn s = .internal := by
  simp [nextTurn, hostReady, hq]

theorem step_eq_press {s : State} (hq : s.requests = []) (hp : pressDue s = true) :
    step s = .next (rampPress (s.takeTurn .internal)) := by
  simp [step_of_internal (nextTurn_of_noRequest hq), runInternal, hp]

theorem step_eq_tick {s : State} (hq : s.requests = []) (ht : tickReady s = true) :
    step s = .next (tick (s.takeTurn .internal)) := by
  have hp : pressDue s = false := pressDue_eq_false_iff.mpr (tickReady_iff.mp ht).1
  simp [step_of_internal (nextTurn_of_noRequest hq), runInternal, hp, ht]

/-- With no request TIME runs up to the next press and nothing else moves but the schedule and the draws (R255). -/
theorem run_ticks_to_press {s : State} (hq : s.requests = []) (hnext : s.time ≤ s.rampNext)
    (hmax : s.rampNext ≤ s.cfg.timeMax) :
    ∃ (k : Nat) (u : State), Host.Core.run Sys2Proof.core k s = .next u ∧
      u = { s with time := s.rampNext, schedule := u.schedule, draws := u.draws } := by
  obtain ⟨d, hd⟩ := Nat.exists_eq_add_of_le hnext
  induction d generalizing s with
  | zero => exact ⟨0, s, rfl, congrArg (fun now => { s with time := now }) hd.symm⟩
  | succ d ih =>
    have ht : tickReady s = true := tickReady_iff.mpr ⟨by omega, by omega⟩
    obtain ⟨k, u, hrun, hu⟩ := ih (s := tick (s.takeTurn .internal)) (by simpa using hq)
      (by simp; omega) (by simpa using hmax) (by simp; omega)
    refine ⟨k + 1, u, core_run_succ (step_eq_tick hq ht) hrun, ?_⟩
    rw [tick_takeTurn] at hu
    exact hu

/-! ### A press the device takes -/

theorem tooLong_of_fits {s : State} {p : Proto} (h : Fits s p) (sc : Scancode) :
    tooLong s.cfg p (encodeFrame s.cfg p sc) = false := by
  rw [tooLong_eq_false, encodeFrame_length]
  exact h

theorem nextWrite_of_head {s : State} {w : Nat} (h : s.writeAnswers.head? = some w) : s.nextWrite = w := by
  obtain ⟨ws, hws⟩ := List.head?_eq_some_iff.mp h
  simp [State.nextWrite, hws]

/-- Whether a command can be sent is read off the configuration and the handle. -/
theorem commandReady_congr {s t : State} {cmd : Command} (h : CommandReady s cmd) (hcfg : t.cfg = s.cfg)
    (hopen : t.txOpen = s.txOpen) (hproto : t.txProto = s.txProto) : CommandReady t cmd := by
  unfold CommandReady Sendable Fits
  rw [hcfg, hopen, hproto]
  exact h

/-- A send gets to the device when the command is ready, and succeeds when the device takes the frame (R196, R205). -/
theorem send_of_ready {s : State} {cmd : Command} (h : CommandReady s cmd) (hw : DeviceTakes s) :
    send cmd s = (.ok, (s.frameStored s.cfg.hpcProto (s.cfg.cmdScancode cmd)).log
      (.frame s.time s.cfg.hpcProto (encodeFrame s.cfg s.cfg.hpcProto (s.cfg.cmdScancode cmd)))) := by
  obtain ⟨hopen, hproto, hvalid, hfits⟩ := h
  have hlen := tooLong_of_fits hfits (s.cfg.cmdScancode cmd)
  obtain ⟨hclosed, -⟩ | ⟨-, hne, -⟩ | ⟨-, -, hsend⟩ := send_cases cmd s
  · simp [hopen] at hclosed
  · exact absurd hproto hne
  rw [hsend]
  obtain ⟨hbad, -⟩ | ⟨-, hlong, -⟩ | ⟨-, -, -, hsent⟩ | ⟨-, -, hshort, -⟩ :=
    sendFrame_cases s.cfg.hpcProto (s.cfg.cmdScancode cmd) s
  · simp [hvalid] at hbad
  · simp [hlen] at hlong
  · exact hsent
  · exact absurd hw hshort

/-- What a press the device takes leaves, beside what every press does (`rampPress_frame`, `rampPress_ramp`): the
handle, the fault and the requests as they were, one level up the cycle, and one whole frame logged now (R251). -/
theorem rampPress_taken {s : State} (h : CommandReady s .inverterPower) (hw : DeviceTakes s) :
    (rampPress s).requests = s.requests ∧ (rampPress s).txOpen = s.txOpen ∧ (rampPress s).txProto = s.txProto ∧
      (rampPress s).rampFault = s.rampFault ∧ (rampPress s).writeAnswers = s.writeAnswers.tail ∧
      (rampPress s).level.val = (s.level.val + 1) % nLevels ∧
      (rampPress s).txlog = s.txlog ++
        [.frame s.time s.cfg.hpcProto (encodeFrame s.cfg s.cfg.hpcProto s.cfg.scInverterPower)] := by
  have hsend := send_of_ready h hw
  obtain ⟨-, hpress⟩ | ⟨hfail, -⟩ := rampPress_cases s
  · simp [hpress, hsend, State.frameStored, Config.cmdScancode]
  · simp [hsend] at hfail

/-! ### The presses of a ramp, one after the other -/

/-- The log's entry for the ramp's press number `j`, counted from 0: one whole frame, at `ramp_next` and `j` times
T_PRESS more (R250, R251). -/
def pressEvent (s : State) (j : Nat) : Event :=
  .frame (s.rampNext + j * s.cfg.tPress) s.cfg.hpcProto (encodeFrame s.cfg s.cfg.hpcProto s.cfg.scInverterPower)

/-- Nothing stands in the ramp's way: no request, the handle ready, no press overdue, every press within TIME, and a
device that takes each. -/
structure RampUndisturbed (s : State) : Prop where
  noRequest : s.requests = []
  ready : CommandReady s .inverterPower
  notLate : s.time ≤ s.rampNext
  inTime : ∀ j < s.rampRemaining.val, s.rampNext + j * s.cfg.tPress ≤ s.cfg.timeMax
  taken : ∀ j < s.rampRemaining.val, s.writeAnswers[j]? = some (4 * frameLength s.cfg.layout s.cfg.hpcProto)

/-- `t` is where the ramp of `s` stands after `j` presses, all taken by the device. -/
structure AfterPresses (s : State) (j : Nat) (t : State) : Prop where
  cfg : t.cfg = s.cfg
  requests : t.requests = s.requests
  txOpen : t.txOpen = s.txOpen
  txProto : t.txProto = s.txProto
  rampFault : t.rampFault = s.rampFault
  answers : t.writeAnswers = s.writeAnswers.drop j
  remaining : t.rampRemaining.val = s.rampRemaining.val - j
  level : t.level.val = (s.level.val + j) % nLevels
  txlog : t.txlog = s.txlog ++ (List.range j).map (pressEvent s)
  next : t.rampNext = s.rampNext + j * s.cfg.tPress

theorem afterPresses_zero (s : State) : AfterPresses s 0 s where
  cfg := rfl
  requests := rfl
  txOpen := rfl
  txProto := rfl
  rampFault := rfl
  answers := rfl
  remaining := rfl
  level := (Nat.mod_eq_of_lt s.level.isLt).symm
  txlog := by simp
  next := by simp

namespace AfterPresses

variable {s t : State} {j : Nat}

theorem ready (h : AfterPresses s j t) (hs : RampUndisturbed s) : CommandReady t .inverterPower :=
  commandReady_congr hs.ready h.cfg h.txOpen h.txProto

theorem deviceTakes (h : AfterPresses s j t) (hs : RampUndisturbed s) (hj : j < s.rampRemaining.val) :
    DeviceTakes t := by
  unfold DeviceTakes
  rw [h.cfg]
  exact nextWrite_of_head (by rw [h.answers, List.head?_drop]; exact hs.taken j hj)

/-- Where the ramp stands does not depend on TIME, the schedule or the draws. -/
theorem wait (h : AfterPresses s j t) (now : Nat) (turns : List Turn) (draws : Nat) :
    AfterPresses s j { t with time := now, schedule := turns, draws := draws } :=
  { h with }

/-- A press the device takes at its due time is the ramp's next one. -/
theorem press (h : AfterPresses s j t) (hready : CommandReady t .inverterPower) (hw : DeviceTakes t)
    (hdue : t.time = t.rampNext) : AfterPresses s (j + 1) (rampPress t) := by
  obtain ⟨hrequests, hopen, hproto, hfault, hanswers, hlevel, hlog⟩ := rampPress_taken hready hw
  obtain ⟨hcfg, -⟩ := rampPress_frame t
  obtain ⟨hremaining, hnext⟩ := rampPress_ramp t
  exact {
    cfg := hcfg.trans h.cfg
    requests := hrequests.trans h.requests
    txOpen := hopen.trans h.txOpen
    txProto := hproto.trans h.txProto
    rampFault := hfault.trans h.rampFault
    answers := by rw [hanswers, h.answers, List.tail_drop]
    remaining := by rw [hremaining, h.remaining, Nat.sub_sub]
    level := by rw [hlevel, h.level, Nat.mod_add_mod, Nat.add_assoc]
    txlog := by
      rw [hlog, hdue, h.next, h.cfg, h.txlog, List.range_succ, List.map_append, List.append_assoc]
      rfl
    next := by rw [hnext, h.next, h.cfg, Nat.succ_mul, Nat.add_assoc] }

/-- With no request in the way TIME runs up to the next press, and the press is made (R250, R255). -/
theorem run_to_next (h : AfterPresses s j t) (hs : RampUndisturbed s) (hj : j < s.rampRemaining.val)
    (htime : t.time ≤ t.rampNext) :
    ∃ (k : Nat) (u : State), Host.Core.run Sys2Proof.core k t = .next u ∧ AfterPresses s (j + 1) u ∧
      u.time = s.rampNext + j * s.cfg.tPress := by
  have hmax : t.rampNext ≤ t.cfg.timeMax := by rw [h.next, h.cfg]; exact hs.inTime j hj
  obtain ⟨k, u, hrun, hu⟩ := run_ticks_to_press (h.requests.trans hs.noRequest) htime hmax
  have hat : AfterPresses s j u := hu ▸ h.wait ..
  have htaken : AfterPresses s j (u.takeTurn .internal) := takeTurn_eq u .internal ▸ hat.wait ..
  have hnow : u.time = t.rampNext := by rw [hu]
  have hdue : u.time = u.rampNext := by rw [hnow, h.next, hat.next]
  have hp : pressDue u = true := pressDue_iff.mpr ⟨by rw [hat.remaining]; omega, hdue⟩
  have hstep := step_eq_press (hat.requests.trans hs.noRequest) hp
  obtain ⟨-, -, hkeep, -⟩ := rampPress_frame (u.takeTurn .internal)
  exact ⟨k + 1, _, core_run_add hrun (core_run_one hstep),
    htaken.press (htaken.ready hs) (htaken.deviceTakes hs hj) (by simpa using hdue),
    by rw [hkeep, takeTurn_time, hnow, h.next]⟩

end AfterPresses

/-- The presses of a ramp in whose way nothing stands are made exactly T_PRESS apart (R250, R251). -/
theorem run_presses {s : State} (hs : RampUndisturbed s) {j : Nat} (hj : j < s.rampRemaining.val) :
    ∃ (k : Nat) (t : State), Host.Core.run Sys2Proof.core k s = .next t ∧ AfterPresses s (j + 1) t ∧
      t.time = s.rampNext + j * s.cfg.tPress := by
  induction j with
  | zero => exact (afterPresses_zero s).run_to_next hs hj hs.notLate
  | succ j ih =>
    obtain ⟨k, u, hrun, hu, htime⟩ := ih (Nat.lt_of_succ_lt hj)
    have hearly : u.time ≤ u.rampNext := by
      rw [htime, hu.next]
      exact Nat.add_le_add_left (Nat.mul_le_mul_right _ (Nat.le_succ j)) _
    obtain ⟨l, t, hrun', ht⟩ := hu.run_to_next hs hj hearly
    exact ⟨k + l, t, core_run_add hrun hrun', ht⟩

end Sys2Proof.Machine

namespace Sys2Proof.Proofs

open Sys2Proof.Machine

/-- Settles O59: press after press, each due T_PRESS after the one before it. -/
theorem rampRunsToCompletion : Obligations.RampRunsToCompletion := by
  unfold Obligations.RampRunsToCompletion
  intro s n more hq hn hpos htime hend hready hanswers
  have hs : RampUndisturbed s := {
    noRequest := hq
    ready := hready
    notLate := htime
    inTime := fun j hj => by
      have hlast : j * s.cfg.tPress ≤ (n - 1) * s.cfg.tPress := Nat.mul_le_mul_right _ (by omega)
      exact (Nat.add_le_add_left hlast _).trans hend
    taken := fun j hj => by
      rw [hanswers, List.getElem?_append_left (by simpa [hn] using hj), List.getElem?_replicate_of_lt (hn ▸ hj)] }
  obtain ⟨k, t, hrun, ht, hlast⟩ := run_presses hs (j := n - 1) (by omega)
  rw [Nat.sub_add_cancel hpos] at ht
  have hdone : t.rampRemaining = 0 := Fin.ext (by rw [ht.remaining, hn]; exact Nat.sub_self n)
  exact ⟨k, t, hrun, hdone, hlast, ht.level, ht.rampFault, ht.txlog⟩

/-- Settles O7: the host's turn is taken, and then its request is performed. -/
theorem stepPerformsDecodedRequest : Obligations.StepPerformsDecodedRequest := by
  unfold Obligations.StepPerformsDecodedRequest
  intro s w rest i hq hd hn
  have hq' : (s.takeTurn .host).requests = w :: rest := (takeTurn_requests s .host).trans hq
  exact ⟨(step_of_host hn).trans (runRequest_of_decode hq' hd), takeTurn_eq s .host⟩

end Sys2Proof.Proofs
end

section
/-!
SUPPORT. Which request words name which operations: the decoder as a relation between words and instructions, the
instructions format by format, and the rows of the opcode table (30_encoding.md R90 to R102).
-/

namespace Sys2Proof

/-! ### The instructions, format by format -/

/-- The instructions by the rows of R96: VALID and ENCODE are one case each, for any protocol. -/
theorem Instr.byFormat {motive : Instr → Prop}
    (valid : ∀ p a, motive (.validOf p a)) (encode : ∀ p a, motive (.encodeOf p a))
    (txopen : ∀ sel, motive (.txopen sel)) (txsend : ∀ sel a, motive (.txsend sel a))
    (txclose : motive .txclose) (update : ∀ c p, motive (.update c p))
    (pressPowerToggle : motive .pressPowerToggle) (pressTempDown : motive .pressTempDown)
    (pressTempUp : motive .pressTempUp) : ∀ i, motive i
  | .validJvc a => valid .jvc a
  | .validSony12 a => valid .sony12 a
  | .validSony15 a => valid .sony15 a
  | .validSony20 a => valid .sony20 a
  | .validNec a => valid .nec a
  | .validNecx a => valid .necx a
  | .validNec32 a => valid .nec32 a
  | .validSanyo a => valid .sanyo a
  | .validSharp a => valid .sharp a
  | .encodeJvc a => encode .jvc a
  | .encodeSony12 a => encode .sony12 a
  | .encodeSony15 a => encode .sony15 a
  | .encodeSony20 a => encode .sony20 a
  | .encodeNec a => encode .nec a
  | .encodeNecx a => encode .necx a
  | .encodeNec32 a => encode .nec32 a
  | .encodeSanyo a => encode .sanyo a
  | .encodeSharp a => encode .sharp a
  | .txopen sel => txopen sel
  | .txsend sel a => txsend sel a
  | .txclose => txclose
  | .update c p => update c p
  | .pressPowerToggle => pressPowerToggle
  | .pressTempDown => pressTempDown
  | .pressTempUp => pressTempUp

@[simp] theorem wellFormed_validOf (p : Proto) (a : Scancode) : (Instr.validOf p a).wellFormed = true := by
  cases p <;> rfl

@[simp] theorem wellFormed_encodeOf (p : Proto) (a : Scancode) : (Instr.encodeOf p a).wellFormed = true := by
  cases p <;> rfl

@[simp] theorem encode_validOf (p : Proto) (a : Scancode) : encode (.validOf p a) = assemble 1 p.id a 0 := by
  cases p <;> rfl

@[simp] theorem encode_encodeOf (p : Proto) (a : Scancode) : encode (.encodeOf p a) = assemble 2 p.id a 0 := by
  cases p <;> rfl

@[simp] theorem readMask_validOf (p : Proto) (a : Scancode) :
    (Instr.validOf p a).readMask = 0xFFFFFFFFFF00000000#72 := by
  cases p <;> rfl

@[simp] theorem readMask_encodeOf (p : Proto) (a : Scancode) :
    (Instr.encodeOf p a).readMask = 0xFFFFFFFFFF00000000#72 := by
  cases p <;> rfl

/-- A protocol's id is in the range TXOPEN and TXSEND accept (R93, R98). -/
@[simp] theorem selNamesProto_id (p : Proto) : selNamesProto p.id = true := by cases p <;> rfl

theorem proto_id_lt (p : Proto) : p.id.toNat < 9 := by cases p <;> decide

/-! ### The decoder, as a relation -/

/-- The request word names the operation: the row of R96 with its fields, the ignored ones holding anything (R99). -/
inductive Names : Request → Instr → Prop where
  | valid (p : Proto) (a b : Word) : Names (assemble 1 p.id a b) (.validOf p a)
  | encode (p : Proto) (a b : Word) : Names (assemble 2 p.id a b) (.encodeOf p a)
  | txopen (p : Proto) (a b : Word) : Names (assemble 3 p.id a b) (.txopen p.id)
  | txsend (p : Proto) (a b : Word) : Names (assemble 4 p.id a b) (.txsend p.id a)
  | txclose (a b : Word) : Names (assemble 5 0 a b) .txclose
  | update (a b : Word) : Names (assemble 6 0 a b) (.update a b)
  | pressPowerToggle (a b : Word) : Names (assemble 7 0 a b) .pressPowerToggle
  | pressTempDown (a b : Word) : Names (assemble 7 1 a b) .pressTempDown
  | pressTempUp (a b : Word) : Names (assemble 7 2 a b) .pressTempUp

theorem exists_eq_assemble (w : Request) : ∃ op sel a b, w = assemble op sel a b :=
  ⟨_, _, _, _, (assemble_fields w).symm⟩

theorem withProto_eq_ok {sel : BitVec 4} {f : Proto → Instr} {i : Instr} (h : withProto sel f = .ok i) :
    ∃ p, sel = p.id ∧ i = f p := by
  unfold withProto at h
  split at h
  next p hp => exact ⟨p, ofSel_eq_some hp, (Except.ok.inj h).symm⟩
  next => cases h

@[simp] theorem withProto_id (p : Proto) (f : Proto → Instr) : withProto p.id f = .ok (f p) := by simp [withProto]

theorem withZeroSel_eq_ok {sel : BitVec 4} {i j : Instr} (h : withZeroSel sel j = .ok i) : sel = 0 ∧ i = j := by
  unfold withZeroSel at h
  split at h
  next hsel => exact ⟨hsel, (Except.ok.inj h).symm⟩
  next => cases h

theorem decodePress_eq_ok {sel : BitVec 4} {i : Instr} (h : decodePress sel = .ok i) :
    (sel = 0 ∧ i = .pressPowerToggle) ∨ (sel = 1 ∧ i = .pressTempDown) ∨ (sel = 2 ∧ i = .pressTempUp) := by
  unfold decodePress at h
  split at h
  next hsel => exact .inl ⟨BitVec.eq_of_toNat_eq hsel, (Except.ok.inj h).symm⟩
  next hsel => exact .inr (.inl ⟨BitVec.eq_of_toNat_eq hsel, (Except.ok.inj h).symm⟩)
  next hsel => exact .inr (.inr ⟨BitVec.eq_of_toNat_eq hsel, (Except.ok.inj h).symm⟩)
  next => cases h

theorem decode_of_names {w : Request} {i : Instr} (h : Names w i) : decode w = .ok i := by
  cases h <;> simp [decode, withZeroSel, decodePress]

theorem names_of_decode {w : Request} {i : Instr} (h : decode w = .ok i) : Names w i := by
  obtain ⟨op, sel, a, b, rfl⟩ := exists_eq_assemble w
  simp only [decode, opField_assemble, selField_assemble, aField_assemble, bField_assemble] at h
  split at h
  next hop =>
    obtain rfl : op = 1 := BitVec.eq_of_toNat_eq hop
    obtain ⟨p, rfl, rfl⟩ := withProto_eq_ok h
    exact .valid p a b
  next hop =>
    obtain rfl : op = 2 := BitVec.eq_of_toNat_eq hop
    obtain ⟨p, rfl, rfl⟩ := withProto_eq_ok h
    exact .encode p a b
  next hop =>
    obtain rfl : op = 3 := BitVec.eq_of_toNat_eq hop
    obtain ⟨p, rfl, rfl⟩ := withProto_eq_ok h
    exact .txopen p a b
  next hop =>
    obtain rfl : op = 4 := BitVec.eq_of_toNat_eq hop
    obtain ⟨p, rfl, rfl⟩ := withProto_eq_ok h
    exact .txsend p a b
  next hop =>
    obtain rfl : op = 5 := BitVec.eq_of_toNat_eq hop
    obtain ⟨rfl, rfl⟩ := withZeroSel_eq_ok h
    exact .txclose a b
  next hop =>
    obtain rfl : op = 6 := BitVec.eq_of_toNat_eq hop
    obtain ⟨rfl, rfl⟩ := withZeroSel_eq_ok h
    exact .update a b
  next hop =>
    obtain rfl : op = 7 := BitVec.eq_of_toNat_eq hop
    obtain ⟨rfl, rfl⟩ | ⟨rfl, rfl⟩ | ⟨rfl, rfl⟩ := decodePress_eq_ok h
    · exact .pressPowerToggle a b
    · exact .pressTempDown a b
    · exact .pressTempUp a b
  next => cases h

/-- The word the encoder writes names the instruction: its ignored fields are zero (R102). -/
theorem names_encode {i : Instr} (h : i.WellFormed) : Names (encode i) i := by
  induction i using Instr.byFormat with
  | valid p a => exact encode_validOf p a ▸ .valid p a 0
  | encode p a => exact encode_encodeOf p a ▸ .encode p a 0
  | txopen sel =>
    obtain ⟨p, -, rfl⟩ := ofSel_of_le h
    exact .txopen p 0 0
  | txsend sel a =>
    obtain ⟨p, -, rfl⟩ := ofSel_of_le h
    exact .txsend p a 0
  | txclose => exact .txclose 0 0
  | update c p => exact .update c p
  | pressPowerToggle => exact .pressPowerToggle 0 0
  | pressTempDown => exact .pressTempDown 0 0
  | pressTempUp => exact .pressTempUp 0 0

theorem Names.wellFormed {w : Request} {i : Instr} (h : Names w i) : i.WellFormed := by
  cases h with
  | valid p a b => exact wellFormed_validOf p a
  | encode p a b => exact wellFormed_encodeOf p a
  | txopen p a b => exact selNamesProto_id p
  | txsend p a b => exact selNamesProto_id p
  | txclose | update | pressPowerToggle | pressTempDown | pressTempUp => rfl

/-- Only the ignored fields separate a word from the encoding of the operation it names (R91, R102). -/
theorem Names.encode_eq {w : Request} {i : Instr} (h : Names w i) : Sys2Proof.encode i = w &&& i.readMask := by
  cases h with
  | valid p a b => rw [encode_validOf, readMask_validOf, assemble_and_opSelA]
  | encode p a b => rw [encode_encodeOf, readMask_encodeOf, assemble_and_opSelA]
  | txsend p a b => exact (assemble_and_opSelA ..).symm
  | update a b => exact BitVec.and_allOnes.symm
  | txopen | txclose | pressPowerToggle | pressTempDown | pressTempUp => exact (assemble_and_opSel ..).symm

/-! ### The rows of the opcode table -/

/-- A row that fixes OP and SEL. -/
def opSelRow (op sel : BitVec 4) : OpRow := ⟨assemble op sel 0 0, 0xFF0000000000000000#72⟩

/-- A row that fixes OP alone: those of TXOPEN and TXSEND (R96). -/
def opOnlyRow (op : BitVec 4) : OpRow := ⟨assemble op 0 0 0, 0xF00000000000000000#72⟩

@[simp] theorem opSelRow_selects {op sel op' sel' : BitVec 4} {a b : Word} :
    (opSelRow op sel).selects (assemble op' sel' a b) = true ↔ op' = op ∧ sel' = sel := by
  simp [opSelRow, OpRow.selects, assemble_and_opSel, assemble_inj]

@[simp] theorem opOnlyRow_selects {op op' sel' : BitVec 4} {a b : Word} :
    (opOnlyRow op).selects (assemble op' sel' a b) = true ↔ op' = op := by
  simp [opOnlyRow, OpRow.selects, assemble_and_op, assemble_inj]

@[simp] theorem row_validOf (p : Proto) (a : Scancode) : (Instr.validOf p a).row = opSelRow 1 p.id := by
  cases p <;> rfl
@[simp] theorem row_encodeOf (p : Proto) (a : Scancode) : (Instr.encodeOf p a).row = opSelRow 2 p.id := by
  cases p <;> rfl
@[simp] theorem row_txopen (sel : BitVec 4) : (Instr.txopen sel).row = opOnlyRow 3 := rfl
@[simp] theorem row_txsend (sel : BitVec 4) (a : Scancode) : (Instr.txsend sel a).row = opOnlyRow 4 := rfl
@[simp] theorem row_txclose : Instr.txclose.row = opSelRow 5 0 := rfl
@[simp] theorem row_update (c p : Power) : (Instr.update c p).row = opSelRow 6 0 := rfl
@[simp] theorem row_pressPowerToggle : Instr.pressPowerToggle.row = opSelRow 7 0 := rfl
@[simp] theorem row_pressTempDown : Instr.pressTempDown.row = opSelRow 7 1 := rfl
@[simp] theorem row_pressTempUp : Instr.pressTempUp.row = opSelRow 7 2 := rfl

/-- The table holds the row of every instruction. -/
theorem row_mem_opcodeRows (i : Instr) : i.row ∈ opcodeRows := by
  induction i using Instr.byFormat with
  | valid p a => rw [row_validOf]; cases p <;> decide
  | encode p a => rw [row_encodeOf]; cases p <;> decide
  | txopen sel => rw [row_txopen]; decide
  | txsend sel a => rw [row_txsend]; decide
  | update c p => rw [row_update]; decide
  | txclose | pressPowerToggle | pressTempDown | pressTempUp => decide

/-- The table holds no row but those of the instructions. -/
theorem exists_row_eq {r : OpRow} (h : r ∈ opcodeRows) : ∃ i : Instr, i.row = r := by
  rw [opcodeRows, ← List.map_append, ← List.map_append] at h
  obtain ⟨i, -, hi⟩ := List.mem_map.mp h
  exact ⟨i, hi⟩

/-- Two rows of the table that agree on the bits both fix are one row. -/
theorem opcodeRows_disjoint :
    ∀ r ∈ opcodeRows, ∀ r' ∈ opcodeRows, r.bits &&& r'.mask = r'.bits &&& r.mask → r = r' := by
  decide

theorem eq_of_selects {r r' : OpRow} {w : Request} (hr : r ∈ opcodeRows) (hr' : r' ∈ opcodeRows)
    (h : r.selects w = true) (h' : r'.selects w = true) : r = r' := by
  have hbits : w &&& r.mask = r.bits := eq_of_beq h
  have hbits' : w &&& r'.mask = r'.bits := eq_of_beq h'
  refine opcodeRows_disjoint r hr r' hr' ?_
  rw [← hbits, ← hbits', BitVec.and_assoc, BitVec.and_assoc, BitVec.and_comm r.mask]

theorem Names.row_selects {w : Request} {i : Instr} (h : Names w i) : i.row.selects w = true := by
  cases h <;> simp

/-- TXOPEN and TXSEND name a protocol, so their SEL is at most 8 (R98). -/
theorem Names.sel_le {w : Request} {i : Instr} (h : Names w i) (hop : opField w = 3#4 ∨ opField w = 4#4) :
    (selField w).toNat ≤ 8 := by
  cases h with
  | txopen p a b | txsend p a b => simpa using Nat.le_of_lt_succ (proto_id_lt p)
  | valid | encode | txclose | update | pressPowerToggle | pressTempDown | pressTempUp => simp at hop

/-- A word some row selects names an operation, if its SEL is in the range of TXOPEN and TXSEND (R96, R98). -/
theorem exists_names_of_row_selects {w : Request} {i : Instr} (h : i.row.selects w = true)
    (hsel : opField w = 3#4 ∨ opField w = 4#4 → (selField w).toNat ≤ 8) : ∃ j, Names w j := by
  obtain ⟨op, sel, a, b, rfl⟩ := exists_eq_assemble w
  rw [opField_assemble, selField_assemble] at hsel
  have hproto (hop : op = 3#4 ∨ op = 4#4) : ∃ p : Proto, p.id = sel := by
    obtain ⟨p, -, hp⟩ := ofSel_of_le (decide_eq_true (Nat.lt_succ_of_le (hsel hop)))
    exact ⟨p, hp⟩
  induction i using Instr.byFormat with
  | valid p _ =>
    obtain ⟨rfl, rfl⟩ := opSelRow_selects.mp (row_validOf p _ ▸ h)
    exact ⟨_, .valid p a b⟩
  | encode p _ =>
    obtain ⟨rfl, rfl⟩ := opSelRow_selects.mp (row_encodeOf p _ ▸ h)
    exact ⟨_, .encode p a b⟩
  | txopen _ =>
    obtain rfl := opOnlyRow_selects.mp (row_txopen _ ▸ h)
    obtain ⟨p, rfl⟩ := hproto (.inl rfl)
    exact ⟨_, .txopen p a b⟩
  | txsend _ _ =>
    obtain rfl := opOnlyRow_selects.mp (row_txsend _ _ ▸ h)
    obtain ⟨p, rfl⟩ := hproto (.inr rfl)
    exact ⟨_, .txsend p a b⟩
  | txclose =>
    obtain ⟨rfl, rfl⟩ := opSelRow_selects.mp (row_txclose ▸ h)
    exact ⟨_, .txclose a b⟩
  | update _ _ =>
    obtain ⟨rfl, rfl⟩ := opSelRow_selects.mp (row_update _ _ ▸ h)
    exact ⟨_, .update a b⟩
  | pressPowerToggle =>
    obtain ⟨rfl, rfl⟩ := opSelRow_selects.mp (row_pressPowerToggle ▸ h)
    exact ⟨_, .pressPowerToggle a b⟩
  | pressTempDown =>
    obtain ⟨rfl, rfl⟩ := opSelRow_selects.mp (row_pressTempDown ▸ h)
    exact ⟨_, .pressTempDown a b⟩
  | pressTempUp =>
    obtain ⟨rfl, rfl⟩ := opSelRow_selects.mp (row_pressTempUp ▸ h)
    exact ⟨_, .pressTempUp a b⟩

/-! ### What the decoder reads of a word -/

/-- OP is the upper half of REQ[71:64] (R90). -/
theorem opField_eq_extract (w : Request) : opField w = (w.extractLsb' 64 8).extractLsb' 4 4 := by
  ext i hi
  have hlt : 4 + i < 8 := by omega
  simp [opField, hlt, ← Nat.add_assoc]

/-- SEL is the lower half of REQ[71:64] (R90). -/
theorem selField_eq_extract (w : Request) : selField w = (w.extractLsb' 64 8).extractLsb' 0 4 := by
  ext i hi
  have hlt : i < 8 := by omega
  simp [selField, hlt]

/-- The decoder reads OP and SEL, A under OP 1, 2, 4 and 6, and B under OP 6 (R91, R99). -/
theorem decode_congr {w w' : Request} (hop : opField w = opField w') (hsel : selField w = selField w')
    (ha : opField w ∈ [1#4, 2#4, 4#4, 6#4] → aField w = aField w') (hb : opField w = 6#4 → bField w = bField w') :
    decode w = decode w' := by
  have hval {n : Nat} (h : (opField w).toNat = n) : opField w = BitVec.ofNat 4 n := by
    rw [← h, BitVec.ofNat_toNat, BitVec.setWidth_eq]
  unfold decode
  rw [← hop, ← hsel]
  split
  next h => rw [ha (by simp [hval h])]
  next h => rw [ha (by simp [hval h])]
  next => rfl
  next h => rw [ha (by simp [hval h])]
  next => rfl
  next h => rw [ha (by simp [hval h]), hb (hval h)]
  next => rfl
  next => rfl

/-- OP is reserved, or SEL is out of the range of OP's format (R97, R98). -/
def IllegalOpSel (op sel : BitVec 4) : Prop :=
  op = 0#4 ∨ 8 ≤ op.toNat ∨ (op ∈ [1#4, 2#4, 3#4, 4#4] ∧ 9 ≤ sel.toNat) ∨ (op = 7#4 ∧ 3 ≤ sel.toNat) ∨
    (op ∈ [5#4, 6#4] ∧ sel ≠ 0#4)

theorem Names.not_illegalOpSel {w : Request} {i : Instr} (h : Names w i) :
    ¬ IllegalOpSel (opField w) (selField w) := by
  unfold IllegalOpSel
  cases h with
  | valid p | encode p | txopen p | txsend p => simpa using proto_id_lt p
  | txclose | update | pressPowerToggle | pressTempDown | pressTempUp => simp

theorem decode_eq_error_of_illegal {w : Request} (h : IllegalOpSel (opField w) (selField w)) :
    ∃ e, decode w = .error e := by
  cases hd : decode w with
  | error e => exact ⟨e, rfl⟩
  | ok i => exact absurd h (names_of_decode hd).not_illegalOpSel

end Sys2Proof

namespace Sys2Proof.Machine

/-- A request that names no operation is refused once it has left the queue (R97, R98, R285). -/
theorem runRequest_of_decode_error {s : State} {w : Request} {rest : List Request} {e : DecodeError}
    (hq : s.requests = w :: rest) (hd : decode w = .error e) :
    runRequest s = .next { s with requests := rest, err := .illegalRequest } := by
  simp [runRequest, State.dropRequest, State.illegal, State.fail, hq, hd]

end Sys2Proof.Machine

namespace Sys2Proof.Proofs

open Sys2Proof.Machine

/-- Settles O1: the word the encoder writes names the instruction. -/
theorem decodeInvertsEncode : Obligations.DecodeInvertsEncode := by
  unfold Obligations.DecodeInvertsEncode
  intro i hi
  exact decode_of_names (names_encode hi)

/-- Settles O2, by what a word that names an operation holds in the fields the operation reads. -/
theorem encodeReproducesReadFields : Obligations.EncodeReproducesReadFields := by
  unfold Obligations.EncodeReproducesReadFields
  intro w i h
  have hn := names_of_decode h
  exact ⟨hn.wellFormed, hn.encode_eq⟩

/-- Settles O3: rows are disjoint, and the word a row selects names an operation if SEL is in range. -/
theorem decodeFollowsOpcodeTable : Obligations.DecodeFollowsOpcodeTable := by
  unfold Obligations.DecodeFollowsOpcodeTable
  refine ⟨fun w i h => ?_, fun w => ⟨?_, ?_⟩⟩
  · have hsel := (names_of_decode h).row_selects
    have hmem := row_mem_opcodeRows i
    exact ⟨hmem, hsel, fun r hr hrsel => eq_of_selects hr hmem hrsel hsel⟩
  · rintro ⟨i, h⟩
    have hn := names_of_decode h
    exact ⟨⟨i.row, row_mem_opcodeRows i, hn.row_selects⟩, hn.sel_le⟩
  · rintro ⟨⟨r, hr, hrsel⟩, hrange⟩
    obtain ⟨i, rfl⟩ := exists_row_eq hr
    obtain ⟨j, hj⟩ := exists_names_of_row_selects hrsel hrange
    exact ⟨j, decode_of_names hj⟩

/-- Settles O5: OP and SEL are the two halves of the eight bits that agree. -/
theorem ignoredFieldsAreNotRead : Obligations.IgnoredFieldsAreNotRead := by
  unfold Obligations.IgnoredFieldsAreNotRead
  intro w w' hopsel ha hb
  have hop : opField w = opField w' := by rw [opField_eq_extract, hopsel, ← opField_eq_extract]
  have hsel : selField w = selField w' := by rw [selField_eq_extract, hopsel, ← selField_eq_extract]
  exact decode_congr hop hsel ha hb

/-- Settles O6: such a word decodes to an error, so the host's turn ends in the refusal. -/
theorem illegalRequestsOnlySetErr : Obligations.IllegalRequestsOnlySetErr := by
  unfold Obligations.IllegalRequestsOnlySetErr
  rintro s w rest _ _ rfl rfl hill hq hn
  obtain ⟨e, he⟩ := decode_eq_error_of_illegal hill
  have hq' : (s.takeTurn .host).requests = w :: rest := (takeTurn_requests s .host).trans hq
  refine ⟨_, (step_of_host hn).trans (runRequest_of_decode_error hq' he), ?_⟩
  rw [takeTurn_eq]

/-- Settles O4, word by word. -/
theorem specWordsDecode : Obligations.SpecWordsDecode := by
  unfold Obligations.SpecWordsDecode
  decide

/-- Settles O28: no protocol has such an id, so both operations end in the refusal. -/
theorem protocolOutOfRangeRefused : Obligations.ProtocolOutOfRangeRefused := by
  unfold Obligations.ProtocolOutOfRangeRefused
  intro s sel sc h
  have hsel : Proto.ofSel sel = none := ofSel_eq_none.mpr h
  have hopen : execTxopen sel s = .next s.illegal := by simp [execTxopen, hsel]
  have hsend : execTxsend sel sc s = .next s.illegal := by simp [execTxsend, hsel]
  exact ⟨hopen, hsend⟩

end Sys2Proof.Proofs
end

section
/-!
SUPPORT. The validity predicate in bytes, and VALID under the default protocol table (40_protocol_table.md R121 to R137).
-/

namespace Sys2Proof.Machine

/-! ### The complement check -/

theorem and_byteMask_eq_zero_iff (x : Word) : x &&& 0xFF#32 = 0 ↔ x.setWidth 8 = 0#8 := by
  have hlow : x &&& 0xFF#32 = 0#24 ++ x.setWidth 8 := BitVec.and_setWidth_allOnes 24 8 x
  have hzero : (0 : Word) = 0#24 ++ 0#8 := rfl
  rw [hlow, hzero, BitVec.append_right_inj]

/-- The form R124 and R125 share: the low byte of `x ^ ~y` is zero exactly when the low byte of `x` is the complement of
that of `y`. -/
theorem complementCheck_iff (x y : Word) :
    ((x ^^^ ~~~y) &&& 0xFF#32 != 0) = true ↔ x.setWidth 8 ≠ ~~~(y.setWidth 8) := by
  have hbyte : (x ^^^ ~~~y).setWidth 8 = x.setWidth 8 ^^^ ~~~(y.setWidth 8) := by
    rw [BitVec.setWidth_xor, BitVec.setWidth_not (by decide)]
  rw [bne_iff_ne, ne_eq, and_byteMask_eq_zero_iff, hbyte, BitVec.xor_eq_zero_iff]

theorem necxValid_iff (sc : Scancode) :
    necxValid sc = true ↔ sc.extractLsb' 16 8 ≠ ~~~(sc.extractLsb' 8 8) :=
  complementCheck_iff (sc >>> 16) (sc >>> 8)

theorem nec32Valid_iff (sc : Scancode) :
    nec32Valid sc = true ↔ sc.extractLsb' 24 8 ≠ ~~~(sc.extractLsb' 16 8) :=
  complementCheck_iff (sc >>> 24) (sc >>> 16)

theorem maskValid_iff (c : Config) (p : Proto) (sc : Scancode) :
    maskValid c p sc = true ↔ sc &&& ~~~(c.row p).scancodeMask = 0 :=
  beq_iff_eq

/-! ### The whole predicate, protocol by protocol -/

theorem isValid_of_maskOnly (c : Config) {p : Proto} (hx : p ≠ .necx) (h32 : p ≠ .nec32) (sc : Scancode) :
    isValid c p sc = maskValid c p sc := by
  cases p with
  | necx => exact absurd rfl hx
  | nec32 => exact absurd rfl h32
  | jvc | sony12 | sony15 | sony20 | nec | sanyo | sharp => exact Bool.and_true _

theorem isValid_necx (c : Config) (sc : Scancode) :
    isValid c .necx sc = (maskValid c .necx sc && necxValid sc) := rfl

theorem isValid_nec32 (c : Config) (sc : Scancode) :
    isValid c .nec32 sc = (maskValid c .nec32 sc && nec32Valid sc) := rfl

theorem isValid_iff (c : Config) (p : Proto) (sc : Scancode) : isValid c p sc = true ↔
    sc &&& ~~~(c.row p).scancodeMask = 0 ∧
    (p = .necx → sc.extractLsb' 16 8 ≠ ~~~(sc.extractLsb' 8 8)) ∧
    (p = .nec32 → sc.extractLsb' 24 8 ≠ ~~~(sc.extractLsb' 16 8)) := by
  cases p with
  | necx => simp [isValid_necx, maskValid_iff, necxValid_iff]
  | nec32 => simp [isValid_nec32, maskValid_iff, nec32Valid_iff]
  | jvc | sony12 | sony15 | sony20 | nec | sanyo | sharp => simp [isValid_of_maskOnly, maskValid_iff]

/-! ### VALID -/

/-- Every VALID is the template of R128. -/
theorem exec_validOf (p : Proto) (sc : Scancode) (s : State) :
    exec (.validOf p sc) s = .next { s with v := isValid s.cfg p sc, err := .ok } := by
  cases p <;> rfl

theorem exec_validOf_of_iff {p : Proto} {sc : Scancode} {s : State} {P : Prop} [Decidable P]
    (h : isValid s.cfg p sc = true ↔ P) :
    exec (.validOf p sc) s = .next { s with v := decide P, err := .ok } := by
  have hv : isValid s.cfg p sc = decide P := Bool.eq_iff_iff.mpr (h.trans decide_eq_true_iff.symm)
  rw [exec_validOf, hv]

theorem exec_validOf_maskOnly {p : Proto} (hx : p ≠ .necx) (h32 : p ≠ .nec32) (sc : Scancode) {s : State}
    {m : Scancode} (hm : ~~~(s.cfg.row p).scancodeMask = m) :
    exec (.validOf p sc) s = .next { s with v := decide (sc &&& m = 0), err := .ok } := by
  refine exec_validOf_of_iff ?_
  rw [isValid_of_maskOnly _ hx h32, maskValid_iff, hm]

end Sys2Proof.Machine

namespace Sys2Proof.Proofs

open Sys2Proof.Machine

/-- Settles O12: the checks of R124 and R125 compare bytes. -/
theorem validityPredicate : Obligations.ValidityPredicate := by
  unfold Obligations.ValidityPredicate
  exact isValid_iff

/-- Settles O14: the default masks of the two protocols and their complement checks. -/
theorem validNecxAndNec32 : Obligations.ValidNecxAndNec32 := by
  unfold Obligations.ValidNecxAndNec32
  intro s sc h
  constructor
  · have hmask : ~~~(s.cfg.row .necx).scancodeMask = 0xFF000000#32 := by rw [Config.row, h]; decide
    refine exec_validOf_of_iff (p := .necx) ?_
    rw [isValid_necx, Bool.and_eq_true, maskValid_iff, necxValid_iff, hmask]
  · have hmask : ~~~(s.cfg.row .nec32).scancodeMask = 0#32 := by rw [Config.row, h]; decide
    refine exec_validOf_of_iff (p := .nec32) ?_
    rw [isValid_nec32, Bool.and_eq_true, maskValid_iff, nec32Valid_iff, hmask]
    simp

/-- Settles O52: the configuration is part of the transport, whose every effect keeps it. -/
theorem stepKeepsConfiguration : Obligations.StepKeepsConfiguration := by
  unfold Obligations.StepKeepsConfiguration
  exact fun _ _ => step_cfg

/-- Settles O13, mask by mask: the bits checked are those outside the default mask. -/
theorem validMaskProtocols : Obligations.ValidMaskProtocols := by
  unfold Obligations.ValidMaskProtocols
  intro s sc h
  have hrow : ∀ p, s.cfg.row p = ProtoTable.default.row p := fun p => by rw [Config.row, h]
  refine ⟨exec_validOf_maskOnly (p := .jvc) nofun nofun sc ?_,
    exec_validOf_maskOnly (p := .sony12) nofun nofun sc ?_,
    exec_validOf_maskOnly (p := .sony15) nofun nofun sc ?_,
    exec_validOf_maskOnly (p := .sony20) nofun nofun sc ?_,
    exec_validOf_maskOnly (p := .nec) nofun nofun sc ?_,
    exec_validOf_maskOnly (p := .sanyo) nofun nofun sc ?_,
    exec_validOf_maskOnly (p := .sharp) nofun nofun sc ?_⟩
  all_goals rw [hrow]; decide

end Sys2Proof.Proofs
end

section
/-!
SUPPORT. The encoder's frames: durations, the bits of joined fields, the element at each position, what a frame reads of
the scancode (41_encoder.md R153 to R169).
-/

namespace Sys2Proof.Machine

open Sys2Proof.Claims

/-! ### Durations -/

theorem us_toNat {k : Nat} (u : Word) (hk : k ≤ 1000) : (us k u).toNat = (k * u.toNat + 500) / 1000 := by
  have hprod : k * u.toNat ≤ 1000 * u.toNat := Nat.mul_le_mul_right _ hk
  have hu : u.toNat < 2 ^ 32 := u.isLt
  have hfits : (k * u.toNat + 500) / 1000 < 2 ^ 32 := by omega
  rw [us, BitVec.toNat_ofNat, Nat.mod_eq_of_lt hfits]

/-- From half a microsecond on, a unit is never rounded to 0. -/
theorem us_pos {k : Nat} {u : Word} (hu : 500 ≤ u.toNat) (hk : 1 ≤ k) (hk' : k ≤ 1000) : 0 < (us k u).toNat := by
  have hprod : 1 * u.toNat ≤ k * u.toNat := Nat.mul_le_mul_right _ hk
  rw [us_toNat u hk']
  omega

/-! ### The bits of joined fields -/

/-- Walking over the bits of two joined fields, least significant first, is walking over the low one and then the high
one. -/
theorem flatMap_bits_append {α : Type} (g : Bool → List α) {m n : Nat} (hi : BitVec m) (lo : BitVec n) :
    ((List.range (m + n)).flatMap fun i => g ((hi ++ lo).getLsbD i)) =
      ((List.range n).flatMap fun i => g (lo.getLsbD i)) ++ (List.range m).flatMap fun i => g (hi.getLsbD i) := by
  have hrange : List.range (m + n) = List.range n ++ (List.range m).map (n + ·) := by rw [Nat.add_comm, List.range_add]
  rw [hrange, List.flatMap_append, List.flatMap_map]
  congr 1
  · refine List.flatMap_congr fun i h => ?_
    rw [BitVec.getLsbD_append, if_pos (List.mem_range.mp h)]
  · refine List.flatMap_congr fun i _ => ?_
    rw [BitVec.getLsbD_append, if_neg (by omega), Nat.add_sub_cancel_left]

theorem sbits_append (u : Word) {m n : Nat} (hi : BitVec m) (lo : BitVec n) (p s0 s1 : Nat) :
    sbits u (hi ++ lo) p s0 s1 = sbits u lo p s0 s1 ++ sbits u hi p s0 s1 :=
  flatMap_bits_append (fun b => [us p u, if b then us s1 u else us s0 u]) hi lo

theorem pbits_append (u : Word) (p1 p0 : Nat) {m n : Nat} (hi : BitVec m) (lo : BitVec n) :
    pbits u p1 p0 (hi ++ lo) = pbits u p1 p0 lo ++ pbits u p1 p0 hi :=
  flatMap_bits_append (fun b => [if b then us p1 u else us p0 u, us 1 u]) hi lo

/-! ### The element at each position -/

theorem at_append {l : List Edge} {i n : Nat} (h : At l i n) (r : List Edge) : At (l ++ r) i n := by
  obtain ⟨hlt, -⟩ := List.getElem?_eq_some_iff.mp h
  rw [At, List.getElem?_append_left hlt]
  exact h

theorem at_dropLast {l : List Edge} {i n : Nat} (hi : i < l.length - 1) (h : At l i n) : At l.dropLast i n := by
  rwa [At, List.getElem?_dropLast, if_pos hi]

theorem at_last {l : List Edge} {i : Nat} (hl : l.length = i) {e : Edge} {n : Nat} (he : e = BitVec.ofNat 32 n) :
    At (l ++ [e]) i n := by
  subst hl he
  exact List.getElem?_concat_length

theorem spaceBits_append {l : List Edge} {start p s0 s1 n : Nat} {v : BitVec n} (h : SpaceBits l start p s0 s1 v)
    (r : List Edge) : SpaceBits (l ++ r) start p s0 s1 v := fun i hi =>
  ⟨at_append (h i hi).1 r, at_append (h i hi).2 r⟩

/-- A space-coded field at the end of a list starts where the list before it ends. -/
theorem spaceBits_last {l : List Edge} {start : Nat} (hl : l.length = start) {u : Word} {kp k0 k1 p s0 s1 : Nat}
    (hp : us kp u = BitVec.ofNat 32 p) (h0 : us k0 u = BitVec.ofNat 32 s0) (h1 : us k1 u = BitVec.ofNat 32 s1)
    {n : Nat} (v : BitVec n) : SpaceBits (l ++ sbits u v kp k0 k1) start p s0 s1 v := by
  intro i hi
  obtain ⟨hpulse, hspace⟩ := sbits_getElem u v kp k0 k1 i hi
  subst hl
  constructor
  · rw [At, List.getElem?_append_right (Nat.le_add_right ..), Nat.add_sub_cancel_left, hpulse, hp]
  · rw [At, Nat.add_assoc, List.getElem?_append_right (Nat.le_add_right ..), Nat.add_sub_cancel_left, hspace, h0, h1]
    split <;> rfl

theorem spaceBits_nec {l : List Edge} {start : Nat} (hl : l.length = start) {n : Nat} (v : BitVec n) :
    SpaceBits (l ++ sbits 562500#32 v 1 1 3) start 563 563 1688 v :=
  spaceBits_last hl (by decide) (by decide) (by decide) v

theorem spaceBits_jvc {l : List Edge} {start : Nat} (hl : l.length = start) {n : Nat} (v : BitVec n) :
    SpaceBits (l ++ sbits 525000#32 v 1 1 3) start 525 525 1575 v :=
  spaceBits_last hl (by decide) (by decide) (by decide) v

theorem spaceBits_sharp {l : List Edge} {start : Nat} (hl : l.length = start) {n : Nat} (v : BitVec n) :
    SpaceBits (l ++ sbits 40000#32 v 8 25 50) start 320 1000 2000 v :=
  spaceBits_last hl (by decide) (by decide) (by decide) v

/-- The frame of NEC and SANYO: a lead, four space-coded fields, a trailing pulse (R156, R161). -/
def fourFieldsFrame {n0 n1 n2 n3 : Nat} (v0 : BitVec n0) (v1 : BitVec n1) (v2 : BitVec n2) (v3 : BitVec n3) :
    List Edge :=
  [us 16 562500#32, us 8 562500#32] ++ sbits 562500#32 v0 1 1 3 ++ sbits 562500#32 v1 1 1 3 ++
    sbits 562500#32 v2 1 1 3 ++ sbits 562500#32 v3 1 1 3 ++ [us 1 562500#32]

theorem necFamilyFrame_eq (sel : NecBytes) (sc : Scancode) :
    necFamilyFrame 562500#32 sel sc = fourFieldsFrame (selectByte sc sel.byte0) (selectByte sc sel.byte1)
      (selectByte sc sel.byte2) (selectByte sc sel.byte3) := rfl

theorem sanyoFrame_default (sc : Scancode) :
    sanyoFrame Config.default sc = fourFieldsFrame (sc.extractLsb' 8 13) (~~~(sc.extractLsb' 8 13))
      (sc.extractLsb' 0 8) (~~~(sc.extractLsb' 0 8)) := rfl

theorem fourFieldsFrame_elements {n0 n1 n2 n3 : Nat} (v0 : BitVec n0) (v1 : BitVec n1) (v2 : BitVec n2)
    (v3 : BitVec n3) :
    At (fourFieldsFrame v0 v1 v2 v3) 0 9000 ∧ At (fourFieldsFrame v0 v1 v2 v3) 1 4500 ∧
    SpaceBits (fourFieldsFrame v0 v1 v2 v3) 2 563 563 1688 v0 ∧
    SpaceBits (fourFieldsFrame v0 v1 v2 v3) (2 + 2 * n0) 563 563 1688 v1 ∧
    SpaceBits (fourFieldsFrame v0 v1 v2 v3) (2 + 2 * (n0 + n1)) 563 563 1688 v2 ∧
    SpaceBits (fourFieldsFrame v0 v1 v2 v3) (2 + 2 * (n0 + n1 + n2)) 563 563 1688 v3 ∧
    At (fourFieldsFrame v0 v1 v2 v3) (2 + 2 * (n0 + n1 + n2 + n3)) 563 := by
  refine ⟨rfl, rfl, ?_, ?_, ?_, ?_, ?_⟩
  · iterate 4 refine spaceBits_append ?_ _
    exact spaceBits_nec rfl _
  · iterate 3 refine spaceBits_append ?_ _
    exact spaceBits_nec (by simp; omega) _
  · iterate 2 refine spaceBits_append ?_ _
    exact spaceBits_nec (by simp; omega) _
  · refine spaceBits_append ?_ _
    exact spaceBits_nec (by simp; omega) _
  · exact at_last (by simp; omega) (by decide)

theorem necWire_necFamilyFrame (sel : NecBytes) (sc : Scancode) :
    NecWire (necFamilyFrame 562500#32 sel sc) (selectByte sc sel.byte0) (selectByte sc sel.byte1)
      (selectByte sc sel.byte2) (selectByte sc sel.byte3) :=
  ⟨necFamilyFrame_length _ _ _, necFamilyFrame_eq sel sc ▸ fourFieldsFrame_elements _ _ _ _⟩

theorem sanyoWire_sanyoFrame (sc : Scancode) : SanyoWire (sanyoFrame Config.default sc) sc :=
  ⟨sanyoFieldsFrame_length _ _ _ _, sanyoFrame_default sc ▸ fourFieldsFrame_elements _ _ _ _⟩

theorem jvcFrame_default (sc : Scancode) :
    jvcFrame Config.default sc = [us 16 525000#32, us 8 525000#32] ++ sbits 525000#32 (sc.extractLsb' 8 8) 1 1 3 ++
      sbits 525000#32 (sc.extractLsb' 0 8) 1 1 3 ++ [us 1 525000#32] := by
  rw [List.append_assoc [_, _], ← sbits_append]; rfl

theorem jvcWire_jvcFrame (sc : Scancode) : JvcWire (jvcFrame Config.default sc) sc := by
  rw [jvcFrame_default]
  refine ⟨by simp, rfl, rfl, ?_, ?_, ?_⟩
  · iterate 2 refine spaceBits_append ?_ _
    exact spaceBits_jvc rfl _
  · refine spaceBits_append ?_ _
    exact spaceBits_jvc (by simp) _
  · exact at_last (by simp) (by decide)

theorem sharpFrame_default (sc : Scancode) :
    sharpFrame Config.default sc =
      sbits 40000#32 (sc.extractLsb' 8 5) 8 25 50 ++ sbits 40000#32 (sc.extractLsb' 0 8) 8 25 50 ++
      sbits 40000#32 0b01#2 8 25 50 ++ [us 8 40000#32, us 1000 40000#32] ++
      sbits 40000#32 (sc.extractLsb' 8 5) 8 25 50 ++ sbits 40000#32 (~~~(sc.extractLsb' 0 8)) 8 25 50 ++
      sbits 40000#32 0b10#2 8 25 50 ++ [us 8 40000#32] := rfl

theorem sharpWire_sharpFrame (sc : Scancode) : SharpWire (sharpFrame Config.default sc) sc := by
  rw [sharpFrame_default]
  refine ⟨by simp, ?_, ?_, ?_, rfl, rfl, ?_, ?_, ?_, ?_⟩
  · iterate 7 refine spaceBits_append ?_ _
    exact spaceBits_sharp (l := []) rfl _
  · iterate 6 refine spaceBits_append ?_ _
    exact spaceBits_sharp (by simp) _
  · iterate 5 refine spaceBits_append ?_ _
    exact spaceBits_sharp (by simp) _
  · iterate 3 refine spaceBits_append ?_ _
    exact spaceBits_sharp (by simp) _
  · iterate 2 refine spaceBits_append ?_ _
    exact spaceBits_sharp (by simp) _
  · refine spaceBits_append ?_ _
    exact spaceBits_sharp (by simp) _
  · exact at_last (by simp) (by decide)

/-- The SONY frame of one field: the lead and the bits, with the space after the last bit dropped (R163). -/
theorem sonyWire_pulses {n : Nat} (hn : 0 < n) (v : BitVec n) :
    SonyWire ([us 4 600000#32, us 1 600000#32] ++ pbits 600000#32 2 1 v).dropLast v := by
  refine ⟨by simp, at_dropLast (by simp) rfl, at_dropLast (by simp; omega) rfl, fun k hk => ?_⟩
  obtain ⟨hpulse, hspace⟩ := pbits_getElem 600000#32 2 1 v k hk
  constructor
  · refine at_dropLast (by simp; omega) ?_
    rw [At, Nat.add_comm 2]
    exact hpulse.trans (by split <;> rfl)
  · intro hlast
    refine at_dropLast (by simp; omega) ?_
    rw [At, Nat.add_comm 3]
    exact hspace

/-- The fields of a SONY frame follow one another: they are sent as one field, the first in the low bits (R163). -/
theorem sonyFieldBits_two (l : Layout) (u : Word) (f g : Field) (sc : Scancode) :
    sonyFieldBits l u [f, g] sc = pbits u l.sonyUnits1 l.sonyUnits0 (selectField sc g ++ selectField sc f) := by
  simp [sonyFieldBits, pbits_append]

theorem sonyFieldBits_three (l : Layout) (u : Word) (f g h : Field) (sc : Scancode) :
    sonyFieldBits l u [f, g, h] sc =
      pbits u l.sonyUnits1 l.sonyUnits0 (selectField sc h ++ (selectField sc g ++ selectField sc f)) := by
  simp [sonyFieldBits, pbits_append]

theorem sonyWire_sonyFamilyFrame {fields : List Field} {sc : Scancode} {n : Nat} {v : BitVec n} (hn : 0 < n)
    (h : sonyFieldBits Layout.default 600000#32 fields sc = pbits 600000#32 2 1 v) :
    SonyWire (sonyFamilyFrame Layout.default 600000#32 fields sc) v := by
  rw [sonyFamilyFrame, h]
  exact sonyWire_pulses hn v

/-! ### What a frame reads of the scancode -/

theorem extractLsb'_and_of_covered {m : Scancode} {lo n : Nat} (h : m.extractLsb' lo n = BitVec.allOnes n)
    (sc : Scancode) : (sc &&& m).extractLsb' lo n = sc.extractLsb' lo n := by
  rw [BitVec.extractLsb'_and, h, BitVec.and_allOnes]

theorem selectField_and_of_covered {m : Scancode} {f : Field} (h : selectField m f = BitVec.allOnes f.width)
    (sc : Scancode) : selectField (sc &&& m) f = selectField sc f :=
  extractLsb'_and_of_covered h sc

theorem selectByte_and_of_covered {m : Scancode} {b : ByteSel}
    (h : m.extractLsb' (8 * b.index.val) 8 = BitVec.allOnes 8) (sc : Scancode) :
    selectByte (sc &&& m) b = selectByte sc b := by
  rw [selectByte, extractLsb'_and_of_covered h]; rfl

theorem necFamilyFrame_and_of_covered {m : Scancode} {sel : NecBytes}
    (h : ∀ b ∈ [sel.byte0, sel.byte1, sel.byte2, sel.byte3], m.extractLsb' (8 * b.index.val) 8 = BitVec.allOnes 8)
    (u : Word) (sc : Scancode) : necFamilyFrame u sel (sc &&& m) = necFamilyFrame u sel sc := by
  simp only [List.forall_mem_cons] at h
  obtain ⟨h0, h1, h2, h3, -⟩ := h
  simp only [necFamilyFrame, selectByte_and_of_covered h0, selectByte_and_of_covered h1, selectByte_and_of_covered h2,
    selectByte_and_of_covered h3]

theorem sonyFamilyFrame_and_of_covered {m : Scancode} {fields : List Field}
    (h : ∀ f ∈ fields, selectField m f = BitVec.allOnes f.width) (l : Layout) (u : Word) (sc : Scancode) :
    sonyFamilyFrame l u fields (sc &&& m) = sonyFamilyFrame l u fields sc := by
  have hbits : sonyFieldBits l u fields (sc &&& m) = sonyFieldBits l u fields sc :=
    List.flatMap_congr fun f hf => by rw [selectField_and_of_covered (h f hf)]
  rw [sonyFamilyFrame, hbits, sonyFamilyFrame]

theorem sanyoFieldsFrame_and_of_covered {m : Scancode} {fa fd : Field}
    (ha : selectField m fa = BitVec.allOnes fa.width) (hd : selectField m fd = BitVec.allOnes fd.width) (u : Word)
    (sc : Scancode) : sanyoFieldsFrame u fa fd (sc &&& m) = sanyoFieldsFrame u fa fd sc := by
  simp only [sanyoFieldsFrame, selectField_and_of_covered ha, selectField_and_of_covered hd]

theorem sharpFieldsFrame_and_of_covered {m : Scancode} {fa fd : Field}
    (ha : selectField m fa = BitVec.allOnes fa.width) (hd : selectField m fd = BitVec.allOnes fd.width) (u : Word)
    (t : BitVec 2) (sc : Scancode) : sharpFieldsFrame u fa fd t (sc &&& m) = sharpFieldsFrame u fa fd t sc := by
  simp only [sharpFieldsFrame, selectField_and_of_covered ha, selectField_and_of_covered hd]

theorem jvcFrame_and_mask (c : Config) (sc : Scancode) : jvcFrame c (sc &&& 0xFFFF#32) = jvcFrame c sc := by
  have hlow := extractLsb'_and_of_covered (m := 0xFFFF#32) (lo := 0) (n := 8) (by decide) sc
  have hhigh := extractLsb'_and_of_covered (m := 0xFFFF#32) (lo := 8) (n := 8) (by decide) sc
  simp only [jvcFrame, jvcWord, hlow, hhigh]

/-- The default masks keep every bit that the default layout reads (R169). -/
theorem encodeFrame_default_and_mask (p : Proto) (sc : Scancode) :
    encodeFrame Config.default p (sc &&& (ProtoTable.default.row p).scancodeMask) =
      encodeFrame Config.default p sc := by
  cases p with
  | jvc => exact jvcFrame_and_mask _ sc
  | sony12 | sony15 | sony20 => exact sonyFamilyFrame_and_of_covered (by decide) _ _ sc
  | nec | necx | nec32 => exact necFamilyFrame_and_of_covered (by decide) _ sc
  | sanyo => exact sanyoFieldsFrame_and_of_covered (by decide) (by decide) _ sc
  | sharp => exact sharpFieldsFrame_and_of_covered (by decide) (by decide) _ _ sc

/-- The encoder reads the table and the layout alone: under the defaults its frames are those of the reset configuration
(R150). -/
theorem encodeFrame_of_defaultEncoder {c : Config} (h : DefaultEncoder c) (p : Proto) (sc : Scancode) :
    encodeFrame c p sc = encodeFrame Config.default p sc := by
  obtain ⟨htable, hlayout⟩ := h
  cases p <;> simp only [encodeFrame, jvcFrame, sony12Frame, sony15Frame, sony20Frame, necFrame, necxFrame, nec32Frame,
    sanyoFrame, sharpFrame, htable, hlayout, Config.default, Config.withScancodes]

/-! ### How long a frame lasts -/

/-- The duration of a list of edges. -/
def duration (l : List Edge) : Nat := (l.map BitVec.toNat).sum

@[simp] theorem duration_append (l r : List Edge) : duration (l ++ r) = duration l + duration r := by
  simp [duration]

theorem duration_sbits (u : Word) {n : Nat} (v : BitVec n) (p s0 s1 : Nat) :
    duration (sbits u v p s0 s1) =
      ((List.range n).map fun i => (us p u).toNat + (if v.getLsbD i then us s1 u else us s0 u).toNat).sum := by
  unfold duration sbits
  induction List.range n with
  | nil => rfl
  | cons i is ih => simpa [List.flatMap_cons, Nat.add_assoc] using ih

/-- A field and its complement have one space of each kind for each bit. -/
theorem duration_sbits_add_not (u : Word) {n : Nat} (v : BitVec n) (p s0 s1 : Nat) :
    duration (sbits u v p s0 s1) + duration (sbits u (~~~v) p s0 s1) =
      n * (2 * (us p u).toNat + (us s0 u).toNat + (us s1 u).toNat) := by
  rw [duration_sbits, duration_sbits, ← List.sum_map_add]
  have hbit : ∀ i ∈ List.range n, (us p u).toNat + (if v.getLsbD i then us s1 u else us s0 u).toNat +
      ((us p u).toNat + (if (~~~v).getLsbD i then us s1 u else us s0 u).toNat) =
        2 * (us p u).toNat + (us s0 u).toNat + (us s1 u).toNat := by
    intro i hi
    rw [BitVec.getLsbD_not, decide_eq_true (List.mem_range.mp hi), Bool.true_and]
    cases v.getLsbD i <;> simp <;> omega
  rw [List.map_congr_left hbit, List.map_const', List.sum_replicate, List.length_range, smul_eq_mul]

theorem duration_fourFieldsFrame_complements {m n : Nat} (v : BitVec m) (w : BitVec n) :
    duration (fourFieldsFrame v (~~~v) w (~~~w)) = 14063 + (m + n) * 3377 := by
  have hbit : 2 * (us 1 562500#32).toNat + (us 1 562500#32).toNat + (us 3 562500#32).toNat = 3377 := by decide
  have hlead : duration [us 16 562500#32, us 8 562500#32] = 13500 := by decide
  have htrail : duration [us 1 562500#32] = 563 := by decide
  have hv := duration_sbits_add_not 562500#32 v 1 1 3
  have hw := duration_sbits_add_not 562500#32 w 1 1 3
  rw [hbit] at hv hw
  simp only [fourFieldsFrame, duration_append, hlead, htrail]
  omega

theorem duration_sanyoFrame (sc : Scancode) : duration (sanyoFrame Config.default sc) = 84980 :=
  sanyoFrame_default sc ▸ duration_fourFieldsFrame_complements _ _

/-! ### No edge of zero duration -/

/-- Every element is a duration of 1 to 1000 units, the range of R153. -/
def InUnits (u : Word) (l : List Edge) : Prop := ∀ e ∈ l, ∃ k, 1 ≤ k ∧ k ≤ 1000 ∧ e = us k u

@[simp] theorem inUnits_nil (u : Word) : InUnits u [] := nofun

@[simp] theorem inUnits_cons_us {u : Word} {k : Nat} (h1 : 1 ≤ k) (h2 : k ≤ 1000) (l : List Edge) :
    InUnits u (us k u :: l) ↔ InUnits u l :=
  List.forall_mem_cons.trans (and_iff_right ⟨k, h1, h2, rfl⟩)

@[simp] theorem inUnits_append {u : Word} {l r : List Edge} : InUnits u (l ++ r) ↔ InUnits u l ∧ InUnits u r :=
  List.forall_mem_append

theorem inUnits_flatMap {α : Type} {u : Word} {l : List α} {f : α → List Edge} (h : ∀ a ∈ l, InUnits u (f a)) :
    InUnits u (l.flatMap f) :=
  List.forall_mem_flatMap.mpr h

@[simp] theorem inUnits_sbits {u : Word} {p s0 s1 : Nat} (hp : 1 ≤ p ∧ p ≤ 1000) (h0 : 1 ≤ s0 ∧ s0 ≤ 1000)
    (h1 : 1 ≤ s1 ∧ s1 ≤ 1000) {n : Nat} (v : BitVec n) : InUnits u (sbits u v p s0 s1) :=
  inUnits_flatMap fun i _ => by split <;> simp [hp, h0, h1]

@[simp] theorem inUnits_pbits {u : Word} {p1 p0 : Nat} (h1 : 1 ≤ p1 ∧ p1 ≤ 1000) (h0 : 1 ≤ p0 ∧ p0 ≤ 1000)
    {n : Nat} (v : BitVec n) : InUnits u (pbits u p1 p0 v) :=
  inUnits_flatMap fun i _ => by split <;> simp [h1, h0]

theorem inUnits_necFamilyFrame (u : Word) (sel : NecBytes) (sc : Scancode) : InUnits u (necFamilyFrame u sel sc) := by
  simp [necFamilyFrame, necByte]

theorem inUnits_sonyFamilyFrame {l : Layout} (h1 : 1 ≤ l.sonyUnits1 ∧ l.sonyUnits1 ≤ 1000)
    (h0 : 1 ≤ l.sonyUnits0 ∧ l.sonyUnits0 ≤ 1000) (u : Word) (fields : List Field) (sc : Scancode) :
    InUnits u (sonyFamilyFrame l u fields sc) := by
  have hbits : InUnits u (sonyFieldBits l u fields sc) := inUnits_flatMap fun f _ => inUnits_pbits h1 h0 _
  have hwhole : InUnits u ([us 4 u, us 1 u] ++ sonyFieldBits l u fields sc) := by simp [hbits]
  exact fun e he => hwhole e (List.mem_of_mem_dropLast he)

/-- Whatever the table and the layout, an edge is 1 to 1000 units of its protocol, when the SONY pulses are. -/
theorem inUnits_encodeFrame {c : Config} (h1 : 1 ≤ c.layout.sonyUnits1 ∧ c.layout.sonyUnits1 ≤ 1000)
    (h0 : 1 ≤ c.layout.sonyUnits0 ∧ c.layout.sonyUnits0 ≤ 1000) (p : Proto) (sc : Scancode) :
    InUnits (c.row p).unitNs (encodeFrame c p sc) := by
  cases p with
  | jvc => simp [encodeFrame, jvcFrame, Config.row, ProtoTable.row]
  | sony12 | sony15 | sony20 => exact inUnits_sonyFamilyFrame h1 h0 _ _ sc
  | nec | necx | nec32 => exact inUnits_necFamilyFrame _ _ sc
  | sanyo => simp [encodeFrame, sanyoFrame, sanyoFieldsFrame, Config.row, ProtoTable.row]
  | sharp => simp [encodeFrame, sharpFrame, sharpFieldsFrame, Config.row, ProtoTable.row]

theorem InUnits.pos {u : Word} {l : List Edge} (h : InUnits u l) (hu : 500 ≤ u.toNat) {e : Edge} (he : e ∈ l) :
    0 < e.toNat := by
  obtain ⟨k, hk, hk', rfl⟩ := h e he
  exact us_pos hu hk hk'

theorem frameLength_odd (l : Layout) (p : Proto) : frameLength l p % 2 = 1 := by
  cases p <;> simp only [frameLength] <;> omega

end Sys2Proof.Machine
end

section
/-!
SUPPORT. ENCODE: what it does in each of its three cases, and what passes its checks under the default tables
(41_encoder.md R167, R170).
-/

namespace Sys2Proof.Machine

open Sys2Proof.Claims

/-! ### The wrapper of R170 -/

theorem exec_encodeOf (p : Proto) (sc : Scancode) (s : State) : exec (.encodeOf p sc) s = .next (encodeOp p sc s) := by
  cases p <;> rfl

theorem tooLong_of_not_fits {s : State} {p : Proto} (h : ¬Fits s p) (sc : Scancode) :
    tooLong s.cfg p (encodeFrame s.cfg p sc) = true := by
  rw [← Bool.not_eq_false, tooLong_eq_false, encodeFrame_length]
  exact h

theorem encodeOp_of_invalid {s : State} {p : Proto} {sc : Scancode} (h : isValid s.cfg p sc = false) :
    encodeOp p sc s = s.fail .invalidScancode := by
  simp [encodeOp, h]

theorem encodeOp_of_not_fits {s : State} {p : Proto} {sc : Scancode} (hv : isValid s.cfg p sc = true)
    (hf : ¬Fits s p) : encodeOp p sc s = s.fail .noEncoding := by
  simp [encodeOp, hv, tooLong_of_not_fits hf]

theorem encodeOp_of_sendable {s : State} {p : Proto} {sc : Scancode} (h : Sendable s p sc) :
    encodeOp p sc s = (s.storeFrame (encodeFrame s.cfg p sc)).done := by
  obtain ⟨hv, hf⟩ := h
  simp [encodeOp, hv, tooLong_of_fits hf]

/-! ### The default tables -/

theorem row_of_defaultEncoder {c : Config} (h : DefaultEncoder c) (p : Proto) : c.row p = ProtoTable.default.row p := by
  rw [Config.row, h.1]

theorem maxEdges_default (p : Proto) :
    (ProtoTable.default.row p).maxEdges.toNat = frameLength Layout.default p := by
  cases p <;> rfl

theorem fits_of_defaultTables {s : State} (h : DefaultTables s.cfg) (p : Proto) : Fits s p := by
  obtain ⟨hdefault, hsizes⟩ := h
  have hcap : frameLength Layout.default p ≤ Sizes.default.ebCap := by cases p <;> decide
  rw [Fits, row_of_defaultEncoder hdefault, maxEdges_default, hdefault.2, hsizes]
  exact ⟨le_rfl, hcap⟩

/-- On a valid scancode, under the default tables, ENCODE stores the frame of the reset configuration. -/
theorem encodes_of_valid {s : State} {p : Proto} {sc : Scancode} {wire : List Edge → Prop} (hd : DefaultTables s.cfg)
    (hv : isValid s.cfg p sc = true) (hw : wire (encodeFrame Config.default p sc)) :
    Encodes (.encodeOf p sc) s wire := by
  have hop := encodeOp_of_sendable ⟨hv, fits_of_defaultTables hd p⟩
  rw [encodeFrame_of_defaultEncoder hd.1] at hop
  exact ⟨_, (exec_encodeOf p sc s).trans (congrArg _ hop), hw, rfl⟩

/-! ### Valid scancodes under the default table -/

/-- A number below `2 ^ k` has no bit outside a mask of the low `k` bits. -/
theorem and_not_lowMask_eq_zero {sc : Scancode} {k : Nat} (h : sc.toNat < 2 ^ k) :
    sc &&& ~~~(BitVec.ofNat 32 (2 ^ k - 1)) = 0 := by
  refine BitVec.eq_of_getLsbD_eq fun i hi => ?_
  rw [BitVec.getLsbD_and, BitVec.getLsbD_not, BitVec.getLsbD_ofNat, Nat.testBit_two_pow_sub_one]
  by_cases hik : i < k
  · simp [hi, hik]
  · have hbit : sc.getLsbD i = false :=
      Nat.testBit_lt_two_pow (h.trans_le (Nat.pow_le_pow_right (by decide) (Nat.le_of_not_lt hik)))
    simp [hbit]

theorem maskValid_of_defaultTable {c : Config} (h : DefaultEncoder c) {p : Proto} {sc : Scancode}
    (hm : sc &&& ~~~(ProtoTable.default.row p).scancodeMask = 0) : maskValid c p sc = true := by
  rw [maskValid_iff, row_of_defaultEncoder h, hm]

/-- For the protocols that check the mask alone. -/
theorem encodes_of_maskOnly {s : State} {p : Proto} {sc : Scancode} {wire : List Edge → Prop} (hx : p ≠ .necx)
    (h32 : p ≠ .nec32) (hd : DefaultTables s.cfg) (hm : sc &&& ~~~(ProtoTable.default.row p).scancodeMask = 0)
    (hw : wire (encodeFrame Config.default p sc)) : Encodes (.encodeOf p sc) s wire := by
  refine encodes_of_valid hd ?_ hw
  rw [isValid_of_maskOnly _ hx h32]
  exact maskValid_of_defaultTable hd.1 hm

end Sys2Proof.Machine

namespace Sys2Proof.Proofs

open Sys2Proof.Machine

/-- Settles O15: the bound on the units keeps the product's rounding within a word. -/
theorem durationConversion : Obligations.DurationConversion := by
  unfold Obligations.DurationConversion
  exact fun _ u hk => us_toNat u hk

/-- Settles O16, from the length of each frame and the default table's row of each protocol. -/
theorem frameLengths : Obligations.FrameLengths := by
  unfold Obligations.FrameLengths
  refine ⟨encodeFrame_length, by decide, maxEdges_default, fun c p sc => ?_, fun c p sc hd => ?_⟩
  · rw [tooLong_eq_true, encodeFrame_length]
    rfl
  · exact tooLong_of_fits (s := .resetWith c) (fits_of_defaultTables hd p) sc

/-- Settles O22: ENCODE's two failing cases. -/
theorem encodeRefusals : Obligations.EncodeRefusals := by
  unfold Obligations.EncodeRefusals
  refine fun s p sc => ⟨fun hv => ?_, fun hv hf => ?_⟩
  · rw [exec_encodeOf, encodeOp_of_invalid hv]; rfl
  · rw [exec_encodeOf, encodeOp_of_not_fits hv hf]; rfl

/-- Settles O23: each field is sent with its complement, so every frame has as many long spaces as bits. -/
theorem sanyoFramesLastTheSame : Obligations.SanyoFramesLastTheSame := by
  unfold Obligations.SanyoFramesLastTheSame
  intro c sc hd
  rw [encodeFrame_of_defaultEncoder hd]
  exact duration_sanyoFrame sc

/-- Settles O24: the default masks cover the fields of the default layout. -/
theorem framesReadOnlyMaskedBits : Obligations.FramesReadOnlyMaskedBits := by
  unfold Obligations.FramesReadOnlyMaskedBits
  intro c p sc hd
  rw [row_of_defaultEncoder hd, encodeFrame_of_defaultEncoder hd, encodeFrame_of_defaultEncoder hd,
    encodeFrame_default_and_mask]

/-- Settles O25: every edge is 1 to 1000 units of its protocol, and no default unit is under half a microsecond. -/
theorem framesEndOnPulses : Obligations.FramesEndOnPulses := by
  unfold Obligations.FramesEndOnPulses
  refine fun c p sc => ⟨?_, fun ht h1 h1' h0 h0' e he => ?_⟩
  · rw [encodeFrame_length]
    exact frameLength_odd _ p
  · have hunit : 500 ≤ (c.row p).unitNs.toNat := by rw [Config.row, ht]; cases p <;> decide
    exact (inUnits_encodeFrame ⟨h1, h1'⟩ ⟨h0, h0'⟩ p sc).pos hunit he

/-- Settles O17: the wire form of a NEC-family frame, with the default bytes of each sub-variant. -/
theorem encodeNecFamily : Obligations.EncodeNecFamily := by
  unfold Obligations.EncodeNecFamily
  intro s sc hd
  refine ⟨fun h => ?_, fun h hx => ?_, fun hx => ?_⟩
  · exact encodes_of_maskOnly (p := .nec) nofun nofun hd (and_not_lowMask_eq_zero (k := 16) (Nat.lt_succ_of_le h))
      (necWire_necFamilyFrame Layout.default.necBytes sc)
  · refine encodes_of_valid (p := .necx) hd ?_ (necWire_necFamilyFrame Layout.default.necxBytes sc)
    rw [isValid_necx, Bool.and_eq_true, necxValid_iff]
    exact ⟨maskValid_of_defaultTable hd.1 (and_not_lowMask_eq_zero (k := 24) (Nat.lt_succ_of_le h)), hx⟩
  · refine encodes_of_valid (p := .nec32) hd ?_ (necWire_necFamilyFrame Layout.default.nec32Bytes sc)
    rw [isValid_nec32, Bool.and_eq_true, nec32Valid_iff]
    exact ⟨maskValid_of_defaultTable hd.1 (and_not_lowMask_eq_zero (k := 32) sc.isLt), hx⟩

/-- Settles O18: the swapped 16-bit field is the byte s[15:8] and then s[7:0]. -/
theorem encodeJvc : Obligations.EncodeJvc := by
  unfold Obligations.EncodeJvc
  exact fun s sc hd h => encodes_of_maskOnly (p := .jvc) nofun nofun hd
    (and_not_lowMask_eq_zero (k := 16) (Nat.lt_succ_of_le h)) (jvcWire_jvcFrame sc)

/-- Settles O19: the four fields of a SANYO frame, one after the other. -/
theorem encodeSanyo : Obligations.EncodeSanyo := by
  unfold Obligations.EncodeSanyo
  exact fun s sc hd h => encodes_of_maskOnly (p := .sanyo) nofun nofun hd
    (and_not_lowMask_eq_zero (k := 21) (Nat.lt_succ_of_le h)) (sanyoWire_sanyoFrame sc)

/-- Settles O20: the two halves of a SHARP frame, three fields each. -/
theorem encodeSharp : Obligations.EncodeSharp := by
  unfold Obligations.EncodeSharp
  exact fun s sc hd h => encodes_of_maskOnly (p := .sharp) nofun nofun hd
    (and_not_lowMask_eq_zero (k := 13) (Nat.lt_succ_of_le h)) (sharpWire_sharpFrame sc)

/-- Settles O21: the fields of each variant are sent as one field, the first in its low bits. -/
theorem encodeSonyFamily : Obligations.EncodeSonyFamily := by
  unfold Obligations.EncodeSonyFamily
  intro s sc hd
  refine ⟨fun h => ?_, fun h => ?_, fun h => ?_⟩
  · exact encodes_of_maskOnly (p := .sony12) nofun nofun hd h
      (sonyWire_sonyFamilyFrame (by decide) (sonyFieldBits_two _ _ ⟨0, 7⟩ ⟨16, 5⟩ sc))
  · exact encodes_of_maskOnly (p := .sony15) nofun nofun hd h
      (sonyWire_sonyFamilyFrame (by decide) (sonyFieldBits_two _ _ ⟨0, 7⟩ ⟨16, 8⟩ sc))
  · exact encodes_of_maskOnly (p := .sony20) nofun nofun hd h
      (sonyWire_sonyFamilyFrame (by decide) (sonyFieldBits_three _ _ ⟨0, 7⟩ ⟨16, 5⟩ ⟨8, 8⟩ sc))

end Sys2Proof.Proofs
end

section
/-!
SUPPORT. The handle: what TXOPEN leaves under each of the device's answers, and what TXCLOSE does (42_transport.md R192
to R194, R202, R203).
-/

namespace Sys2Proof.Machine

open Sys2Proof.Claims

/-! ### TXOPEN -/

theorem exec_txopen_id (p : Proto) (s : State) : exec (.txopen p.id) s = .next (openHandle p s) := by
  simp [exec, execTxopen]

theorem openHandle_of_open {s : State} (h : s.txOpen = true) (p : Proto) : openHandle p s = s.fail .alreadyOpen := by
  simp [openHandle, h]

theorem openHandle_of_closed {s : State} (h : s.txOpen = false) (p : Proto) :
    openHandle p s = openDevice p s.nextOpen s.openDrawn := by
  simp [openHandle, h]

/-- The device step after the event `e` failed: the node is closed, and the code is in ERR (R194). -/
theorem log_abandonOpen (s : State) (e : Event) (err : Err) :
    (s.log e).abandonOpen err = { s with txlog := s.txlog ++ [e, .closed s.time], err := err } := by
  simp [State.abandonOpen, State.log, State.fail]

/-- The device steps once the answers are drawn: the first answer that is no decides (R192 to R194). -/
theorem openDevice_result (p : Proto) (o : OpenAnswers) (s : State) :
    OpenResult p o s (openDevice p o s.openDrawn) := by
  simp only [OpenResult, openDevice, Bool.not_eq_true']
  split_ifs
  · rfl
  · exact log_abandonOpen s.openDrawn _ _
  · exact log_abandonOpen s.openDrawn _ _
  · exact log_abandonOpen s.openDrawn _ _
  · exact log_abandonOpen s.openDrawn _ _
  · rw [log_abandonOpen]; simp [State.log, State.openDrawn]
  · simp [State.log, State.bindHandle, State.done, State.openDrawn]

/-- From `s` to `t` no handle leaked: its registers are as they were, and each device node opened now is closed again
(R194). -/
def NoHandleLeaked (s t : State) : Prop :=
  t.txOpen = s.txOpen ∧ t.txProto = s.txProto ∧ t.txCarrier = s.txCarrier ∧
    ∃ new, t.txlog = s.txlog ++ new ∧ new.count (.opened s.time) = new.count (.closed s.time)

theorem noHandleLeaked_of_log {s t : State} {new : List Event}
    (h : t.transport = { s.transport with txlog := s.txlog ++ new })
    (hcount : new.count (.opened s.time) = new.count (.closed s.time)) : NoHandleLeaked s t :=
  ⟨congrArg Transport.txOpen h, congrArg Transport.txProto h, congrArg Transport.txCarrier h, new,
    congrArg Transport.txlog h, hcount⟩

theorem noHandleLeaked_of_transport_eq {s t : State} (h : t.transport = s.transport) : NoHandleLeaked s t :=
  noHandleLeaked_of_log (new := []) (by rw [h, List.append_nil]; rfl) rfl

/-- The device steps of TXOPEN leak no handle where they end in an error. -/
theorem noHandleLeaked_of_openResult {p : Proto} {o : OpenAnswers} {s t : State} (h : OpenResult p o s t)
    (herr : t.err ≠ .ok) : NoHandleLeaked s t := by
  unfold OpenResult at h
  split_ifs at h
  · exact noHandleLeaked_of_transport_eq (by rw [h]; rfl)
  · exact noHandleLeaked_of_log (by rw [h]; rfl) (by simp)
  · exact noHandleLeaked_of_log (by rw [h]; rfl) (by simp)
  · exact noHandleLeaked_of_log (by rw [h]; rfl) (by simp)
  · exact noHandleLeaked_of_log (by rw [h]; rfl) (by simp)
  · exact noHandleLeaked_of_log (by rw [h]; rfl) (by simp)
  · exact absurd (by rw [h]) herr

/-! ### TXCLOSE -/

theorem rampInFlight_eq_false_iff {s : State} : rampInFlight s = false ↔ s.rampRemaining = 0 := by
  simp [rampInFlight]

theorem exec_txclose_of_noRamp {s : State} (h : s.rampRemaining = 0) : exec .txclose s = .next (closeHandle s) := by
  simp [exec, execTxclose, held, rampInFlight_eq_false_iff.mpr h]

theorem exec_txclose_of_ramp {s : State} (h : s.rampRemaining ≠ 0) : exec .txclose s = .next s := by
  have hramp : rampInFlight s = true := by rwa [← Bool.not_eq_false, rampInFlight_eq_false_iff]
  simp [exec, execTxclose, held, hramp]

theorem closeHandle_of_open {s : State} (h : s.txOpen = true) :
    closeHandle s = (s.dropHandle.log (.closed s.time)).done := by
  simp [closeHandle, h]

theorem closeHandle_of_closed {s : State} (h : s.txOpen = false) : closeHandle s = s.fail .notOpen := by
  simp [closeHandle, h]

end Sys2Proof.Machine

namespace Sys2Proof.Proofs

open Sys2Proof.Machine

/-- Settles O26: the answers are drawn, and then the device steps run under them. -/
theorem txopenOutcomes : Obligations.TxopenOutcomes := by
  unfold Obligations.TxopenOutcomes
  intro s p h
  rw [exec_txopen_id, openHandle_of_closed h]
  exact ⟨_, rfl, openDevice_result p s.nextOpen s⟩

/-- Settles O27: the open handle is the first thing TXOPEN checks. -/
theorem txopenAlreadyOpen : Obligations.TxopenAlreadyOpen := by
  unfold Obligations.TxopenAlreadyOpen
  intro s p h
  rw [exec_txopen_id, openHandle_of_open h]
  rfl

/-- Settles O29: an id out of range (O28) and an open handle (O27) end before any device step, and of the device steps'
outcomes (O26) each error leaks no handle. -/
theorem failedOpenLeaksNoHandle : Obligations.FailedOpenLeaksNoHandle := by
  unfold Obligations.FailedOpenLeaksNoHandle
  intro s t sel h herr
  change NoHandleLeaked s t
  cases hsel : Proto.ofSel sel with
  | none =>
    obtain ⟨hill, -⟩ := protocolOutOfRangeRefused s sel 0 (ofSel_eq_none.mp hsel)
    cases hill.symm.trans h
    exact noHandleLeaked_of_transport_eq rfl
  | some p =>
    obtain rfl := ofSel_eq_some hsel
    cases hopen : s.txOpen with
    | true =>
      cases (txopenAlreadyOpen s p hopen).symm.trans h
      exact noHandleLeaked_of_transport_eq rfl
    | false =>
      obtain ⟨u, hu, hres⟩ := txopenOutcomes s p hopen
      cases hu.symm.trans h
      exact noHandleLeaked_of_openResult hres herr

/-- Settles O32: the ramp first, and then the handle. -/
theorem txcloseOutcomes : Obligations.TxcloseOutcomes := by
  unfold Obligations.TxcloseOutcomes
  refine fun s => ⟨fun hr ho => ?_, fun hr ho => ?_, exec_txclose_of_ramp⟩
  · exact ⟨_, (exec_txclose_of_noRamp hr).trans (congrArg _ (closeHandle_of_open ho)), rfl⟩
  · rw [exec_txclose_of_noRamp hr, closeHandle_of_closed ho]
    rfl

end Sys2Proof.Proofs
end

section
/-!
SUPPORT. Sending: what SendFrame and the controller's Send answer in each case, and what TXSEND and PRESS make of the
answer (42_transport.md R196 to R199, R205; 43_controller.md R232, R233).
-/

namespace Sys2Proof.Machine

open Sys2Proof.Claims

/-! ### SendFrame -/

theorem sendFrame_of_invalid {s : State} {p : Proto} {sc : Scancode} (h : isValid s.cfg p sc = false) :
    sendFrame p sc s = (.invalidScancode, s) := by
  simp [sendFrame, h]

theorem sendFrame_of_not_fits {s : State} {p : Proto} {sc : Scancode} (hv : isValid s.cfg p sc = true)
    (hf : ¬Fits s p) : sendFrame p sc s = (.noEncoding, s) := by
  simp [sendFrame, hv, tooLong_of_not_fits hf]

/-- Past its checks SendFrame stores the frame and records what the device answers. -/
theorem sendFrame_of_sendable {s : State} {p : Proto} {sc : Scancode} (h : Sendable s p sc) :
    sendFrame p sc s = recordWrite p (encodeFrame s.cfg p sc) s.nextWrite (s.frameStored p sc) := by
  obtain ⟨hv, hf⟩ := h
  have hshort := tooLong_of_fits hf sc
  simp only [sendFrame, hv, hshort]
  rfl

/-- The state after the frame of `(p, sc)` was stored and the device took all of it. -/
def State.frameSent (s : State) (p : Proto) (sc : Scancode) : State :=
  (s.frameStored p sc).log (.frame s.time p (encodeFrame s.cfg p sc))

/-- The state after the frame of `(p, sc)` was stored and the device reported another byte count. -/
def State.frameCutShort (s : State) (p : Proto) (sc : Scancode) : State :=
  (s.frameStored p sc).log (.short s.time p (encodeFrame s.cfg p sc) s.nextWrite)

theorem sendFrame_of_taken {s : State} {p : Proto} {sc : Scancode} (h : Sendable s p sc)
    (hw : s.nextWrite = 4 * frameLength s.cfg.layout p) : sendFrame p sc s = (.ok, s.frameSent p sc) := by
  rw [sendFrame_of_sendable h, recordWrite, encodeFrame_length, if_pos hw]
  rfl

theorem sendFrame_of_short {s : State} {p : Proto} {sc : Scancode} (h : Sendable s p sc)
    (hw : s.nextWrite ≠ 4 * frameLength s.cfg.layout p) :
    sendFrame p sc s = (.writeError, s.frameCutShort p sc) := by
  rw [sendFrame_of_sendable h, recordWrite, encodeFrame_length, if_neg hw]
  rfl

theorem sent_done (s : State) (p : Proto) (sc : Scancode) :
    Sent { s with err := .ok } (s.frameSent p sc).done p sc := by
  unfold Sent
  rw [← encodeFrame_length s.cfg p sc]
  rfl

theorem cutShort_fail (s : State) (p : Proto) (sc : Scancode) (e : Err) :
    CutShort { s with err := e } ((s.frameCutShort p sc).fail e) p sc := by
  unfold CutShort
  rw [← encodeFrame_length s.cfg p sc]
  rfl

/-! ### TXSEND -/

theorem exec_txsend_id (p : Proto) (sc : Scancode) (s : State) :
    exec (.txsend p.id sc) s = .next (txsendOp p sc s) := by
  simp [exec, execTxsend]

theorem txsendOp_of_closed {s : State} (h : s.txOpen = false) (p : Proto) (sc : Scancode) :
    txsendOp p sc s = s.fail .notOpen := by
  simp [txsendOp, h]

theorem txsendOp_of_mismatch {s : State} {p : Proto} (ho : s.txOpen = true) (hp : p ≠ s.txProto) (sc : Scancode) :
    txsendOp p sc s = s.fail .protocolMismatch := by
  simp [txsendOp, ho, hp]

/-- A frame the device took ends in ERR 0. -/
theorem txsendOp_of_sent {s u : State} {p : Proto} {sc : Scancode} (ho : s.txOpen = true) (hp : p = s.txProto)
    (h : sendFrame p sc s = (.ok, u)) : txsendOp p sc s = u.done := by
  simp [txsendOp, ho, ← hp, h]

/-- A send that fails puts its code in ERR. -/
theorem txsendOp_of_failed {s u : State} {p : Proto} {sc : Scancode} {e : Err} (ho : s.txOpen = true)
    (hp : p = s.txProto) (h : sendFrame p sc s = (e, u)) (he : e ≠ .ok) : txsendOp p sc s = u.fail e := by
  simp [txsendOp, ho, ← hp, h, he]

/-! ### The controller's Send, and PRESS -/

/-- A refused Send changes nothing. -/
theorem send_of_refused {s : State} {cmd : Command} {e : Err} (h : SendRefused s cmd e) : send cmd s = (e, s) := by
  obtain ⟨ho, rfl⟩ | ⟨ho, hp, rfl⟩ | ⟨ho, hp, hv, rfl⟩ | ⟨ho, hp, hv, hf, rfl⟩ := h
  · simp [send, ho]
  · simp [send, ho, hp]
  · simp [send, ho, hp, sendFrame_of_invalid hv]
  · simp [send, ho, hp, sendFrame_of_not_fits hv hf]

theorem ne_ok_of_sendRefused {s : State} {cmd : Command} {e : Err} (h : SendRefused s cmd e) : e ≠ .ok := by
  obtain ⟨-, rfl⟩ | ⟨-, -, rfl⟩ | ⟨-, -, -, rfl⟩ | ⟨-, -, -, -, rfl⟩ := h <;> decide

theorem send_of_short {s : State} {cmd : Command} (h : CommandReady s cmd) (hw : ¬DeviceTakes s) :
    send cmd s = (.writeError, s.frameCutShort s.cfg.hpcProto (s.cfg.cmdScancode cmd)) := by
  obtain ⟨ho, hp, hsendable⟩ := h
  simp [send, ho, hp, sendFrame_of_short hsendable hw]

/-- After a failed send no transition is made, whatever it would have been (R232). -/
theorem sendThen_of_failed {s u : State} {cmd : Command} {e : Err} (h : send cmd s = (e, u)) (he : e ≠ .ok)
    (k : State → State) : sendThen cmd k s = u.fail e := by
  simp [sendThen, h, he]

/-- Each PRESS is the send of its command with a transition after it (R233). -/
theorem exec_press_eq_sendThen {i : Instr} {cmd : Command}
    (h : (i, cmd) ∈ [(Instr.pressPowerToggle, Command.powerToggle), (.pressTempDown, .tempDown),
      (.pressTempUp, .tempUp)]) : ∃ k : State → State, ∀ s, exec i s = .next (sendThen cmd k s) := by
  simp only [List.mem_cons, Prod.mk.injEq, List.not_mem_nil, or_false] at h
  obtain ⟨rfl, rfl⟩ | ⟨rfl, rfl⟩ | ⟨rfl, rfl⟩ := h
  · exact ⟨State.togglePower, fun _ => rfl⟩
  · exact ⟨id, fun _ => rfl⟩
  · exact ⟨id, fun _ => rfl⟩

end Sys2Proof.Machine

namespace Sys2Proof.Proofs

open Sys2Proof.Machine Sys2Proof.Claims

/-- Settles O45: the four refusals of the send, and the short write. -/
theorem pressFailures : Obligations.PressFailures := by
  unfold Obligations.PressFailures
  intro s i cmd hi
  obtain ⟨k, hexec⟩ := exec_press_eq_sendThen hi
  have hrefused {e : Err} (h : SendRefused s cmd e) : exec i s = .next { s with err := e } :=
    (hexec s).trans (congrArg _ (sendThen_of_failed (send_of_refused h) (ne_ok_of_sendRefused h) k))
  refine ⟨fun ho => hrefused (.inl ⟨ho, rfl⟩), fun ho hp => hrefused (.inr (.inl ⟨ho, hp, rfl⟩)),
    fun ho hp hv => hrefused (.inr (.inr (.inl ⟨ho, hp, hv, rfl⟩))),
    fun ho hp hv hf => hrefused (.inr (.inr (.inr ⟨ho, hp, hv, hf, rfl⟩))), fun hready hw => ?_⟩
  rw [hexec, sendThen_of_failed (send_of_short hready hw) (by decide)]
  exact ⟨_, rfl, cutShort_fail s _ _ _⟩

/-- Settles O30: TXSEND's own two checks, then SendFrame's. -/
theorem txsendRefusals : Obligations.TxsendRefusals := by
  unfold Obligations.TxsendRefusals
  intro s p sc
  rw [exec_txsend_id]
  refine ⟨fun ho => ?_, fun ho hp => ?_, fun ho hp hv => ?_, fun ho hp hv hf => ?_⟩
  · rw [txsendOp_of_closed ho]; rfl
  · rw [txsendOp_of_mismatch ho hp]; rfl
  · rw [txsendOp_of_failed ho hp (sendFrame_of_invalid hv) (by decide)]; rfl
  · rw [txsendOp_of_failed ho hp (sendFrame_of_not_fits hv hf) (by decide)]; rfl

/-- Settles O31: past the checks the device's byte count decides. -/
theorem txsendOutcomes : Obligations.TxsendOutcomes := by
  unfold Obligations.TxsendOutcomes
  intro s p sc ho hp hs
  rw [exec_txsend_id]
  refine ⟨fun hw => ?_, fun hw => ?_⟩
  · rw [txsendOp_of_sent ho hp (sendFrame_of_taken hs hw)]
    exact ⟨_, rfl, sent_done s p sc⟩
  · rw [txsendOp_of_failed ho hp (sendFrame_of_short hs hw) (by decide)]
    exact ⟨_, rfl, cutShort_fail s p sc _⟩

end Sys2Proof.Proofs
end

section
/-!
SUPPORT. A held request: the internal side moves, and the host's queue stands (42_transport.md R203; 43_controller.md
R229).
-/

namespace Sys2Proof.Machine

/-- While the host's next request is held the internal side moves (R292). -/
theorem nextTurn_of_held {s : State} {w : Request} {rest : List Request} {i : Instr} (hq : s.requests = w :: rest)
    (hd : decode w = .ok i) (hh : held i s = true) : nextTurn s = .internal := by
  simp [nextTurn, hostReady, hq, hd, hh]

theorem rampPress_requests (s : State) : (rampPress s).requests = s.requests := by
  obtain ⟨-, h⟩ | ⟨-, h⟩ := rampPress_cases s <;> simp [h]

/-- A step of the internal side leaves the host's queue, ERR and the power state. -/
theorem step_frame_of_internal {s t : State} (hn : nextTurn s = .internal) (h : step s = .next t) :
    t.requests = s.requests ∧ t.err = s.err ∧ t.isOn = s.isOn := by
  obtain ⟨hhost, -⟩ | ⟨-, -, rfl⟩ | ⟨-, -, rfl⟩ := step_cases h
  · simp [hn] at hhost
  · obtain ⟨-, hon, -, herr, -⟩ := rampPress_frame (s.takeTurn .internal)
    simp [rampPress_requests, hon, herr]
  · simp

end Sys2Proof.Machine

namespace Sys2Proof.Proofs

open Sys2Proof.Machine

/-- Settles O9: the internal side's step (O11) leaves the host's queue. -/
theorem heldRequestWaits : Obligations.HeldRequestWaits := by
  unfold Obligations.HeldRequestWaits
  intro s w rest i hq hd hh htime
  have hn := nextTurn_of_held hq hd hh
  obtain ⟨hpress, htick, -⟩ := pressBeforeTick s hn
  cases hp : pressDue s with
  | true =>
    obtain ⟨t, ht, -, hrem, -⟩ := hpress (pressDue_iff.mp hp)
    obtain ⟨hreq, herr, hon⟩ := step_frame_of_internal hn ht
    exact ⟨t, ht, hreq, herr, hon, .inl ⟨rfl, hrem⟩⟩
  | false =>
    obtain ⟨t, ht, hticked⟩ := htick ⟨pressDue_eq_false_iff.mp hp, htime⟩
    obtain ⟨hreq, herr, hon⟩ := step_frame_of_internal hn ht
    exact ⟨t, ht, hreq, herr, hon, .inr ⟨rfl, by rw [hticked]⟩⟩

end Sys2Proof.Proofs
end

section
/-!
SUPPORT. The sample of an UPDATE and its target level, the controller's conditions read as inequalities, and the two
timers and the level request as the statements write them (43_controller.md R221 to R229).
-/

namespace Sys2Proof.Machine

open Sys2Proof.Claims

/-! ### The sample and its target -/

theorem availableDw_eq_toInt (c p : Power) : availableDw c p = p.toInt - c.toInt := by
  rw [availableDw, sint_eq_toInt, sint_eq_toInt]

theorem tier_of_le_low {c : Config} {a : Int} (h : a ≤ c.lowThreshold) : tier c a = 0 := by
  simp [tier, h]

theorem tier_of_le_mid {c : Config} {a : Int} (hlow : c.lowThreshold < a) (hmid : a ≤ c.midThreshold) :
    tier c a = 1 := by
  simp [tier, Int.not_le.mpr hlow, hmid]

theorem tier_of_le_high {c : Config} {a : Int} (hlow : c.lowThreshold < a) (hmid : c.midThreshold < a)
    (hhigh : a ≤ c.highThreshold) : tier c a = 2 := by
  simp [tier, Int.not_le.mpr hlow, Int.not_le.mpr hmid, hhigh]

theorem tier_of_high_lt {c : Config} {a : Int} (hlow : c.lowThreshold < a) (hmid : c.midThreshold < a)
    (hhigh : c.highThreshold < a) : tier c a = 3 := by
  simp [tier, Int.not_le.mpr hlow, Int.not_le.mpr hmid, Int.not_le.mpr hhigh]

theorem pressCount_val (g l : Level) : (pressCount g l).val = (g.val + 5 - l.val) % 5 := rfl

/-! ### The controller's conditions as inequalities -/

theorem elapsed_iff {now since d : Nat} : elapsed now since d = true ↔ since + d ≤ now := by simp [elapsed]

theorem elapsed_eq_false_iff {now since d : Nat} : elapsed now since d = false ↔ now < since + d := by
  simp [elapsed]

theorem joinNeeded_iff {a : Int} {s : State} :
    joinNeeded a s = true ↔ s.isOn = true ∧ tier s.cfg a ≠ s.level ∧
      s.lastPowerChange + s.cfg.tDebounce ≤ s.time ∧ 0 < s.rampRemaining.val := by
  simp [joinNeeded, elapsed_iff, rampInFlight, and_assoc]

theorem notHeld_iff {c p : Power} {s : State} : NotHeld c p s ↔ joinNeeded (availableDw c p) s = false := by
  rw [← Bool.not_eq_true, joinNeeded_iff, NotHeld]

theorem notHeld_of_off {c p : Power} {s : State} (h : s.isOn = false) : NotHeld c p s := by simp [NotHeld, h]

/-- A ramp whose presses are all due before the debounce is over is never in the way of a level request (R257). -/
theorem not_elapsed_of_rampOk {s : State} (h : s.RampOk) (hr : 0 < s.rampRemaining.val)
    (hc : 3 * s.cfg.tPress < s.cfg.tDebounce) : s.time < s.lastPowerChange + s.cfg.tDebounce := by
  obtain ⟨hnext, hlast⟩ := h hr
  omega

/-! ### The timers and the level request, as the statements write them -/

theorem startCanTurnOn_eq (s : State) : s.startCanTurnOn = onTimerRunning s := by
  unfold State.startCanTurnOn onTimerRunning
  by_cases h : s.canTurnOn = true
  · rw [if_pos h, if_pos h]
    exact congrArg (fun b => { s with canTurnOn := b }) h
  · rw [if_neg h, if_neg h]

theorem startShallTurnOff_eq (s : State) : s.startShallTurnOff = offTimerRunning s := by
  unfold State.startShallTurnOff offTimerRunning
  by_cases h : s.shallTurnOff = true
  · rw [if_pos h, if_pos h]
    exact congrArg (fun b => { s with shallTurnOff := b }) h
  · rw [if_neg h, if_neg h]

theorem requestAccepted_iff {g : Level} {s : State} :
    requestAccepted g s = true ↔ ¬(g = s.level ∨ s.time < s.lastPowerChange + s.cfg.tDebounce) := by
  simp [requestAccepted, elapsed_iff]

theorem requestLevel_eq (g : Level) (s : State) : requestLevel g s = levelRequested g s := by
  unfold requestLevel levelRequested
  simp only [requestAccepted_iff, ite_not]
  rfl

/-- A timer that ran out was started before, if its dwell is not empty (R223, R225). -/
theorem latch_of_ranOut {latch : Bool} {since now d : Nat} (hd : 0 < d)
    (h : (if latch then since else now) + d ≤ now) : latch = true ∧ since + d ≤ now := by
  cases latch with
  | true => exact ⟨rfl, h⟩
  | false => simp only [Bool.false_eq_true, if_false] at h; omega

end Sys2Proof.Machine

namespace Sys2Proof.Proofs

open Sys2Proof.Machine

/-- Settles O33: two's complement operands, whose difference fits in 33 bits. -/
theorem availablePowerExact : Obligations.AvailablePowerExact := by
  unfold Obligations.AvailablePowerExact
  intro c p
  have hrange (x : Power) : -2 ^ 31 ≤ x.toInt ∧ x.toInt < 2 ^ 31 := ⟨BitVec.le_toInt x, BitVec.toInt_lt⟩
  have hc := hrange c
  have hp := hrange p
  have ha := availableDw_eq_toInt c p
  exact ⟨ha, by omega, by omega⟩

/-- Settles O34, band by band. -/
theorem targetLevel : Obligations.TargetLevel := by
  unfold Obligations.TargetLevel
  intro c a hlm hmh
  obtain hlow | hlow := le_or_gt a c.lowThreshold
  · rw [tier_of_le_low hlow]
    exact ⟨iff_of_true rfl (by omega), iff_of_false (by decide) (by omega),
      iff_of_false (by decide) (by omega), iff_of_false (by decide) (by omega), by decide⟩
  obtain hmid | hmid := le_or_gt a c.midThreshold
  · rw [tier_of_le_mid hlow hmid]
    exact ⟨iff_of_false (by decide) (by omega), iff_of_true rfl (by omega),
      iff_of_false (by decide) (by omega), iff_of_false (by decide) (by omega), by decide⟩
  obtain hhigh | hhigh := le_or_gt a c.highThreshold
  · rw [tier_of_le_high hlow hmid hhigh]
    exact ⟨iff_of_false (by decide) (by omega), iff_of_false (by decide) (by omega),
      iff_of_true rfl (by omega), iff_of_false (by decide) (by omega), by decide⟩
  · rw [tier_of_high_lt hlow hmid hhigh]
    exact ⟨iff_of_false (by decide) (by omega), iff_of_false (by decide) (by omega),
      iff_of_false (by decide) (by omega), iff_of_true rfl (by omega), by decide⟩

/-- Settles O35: with both levels below five the count is a residue of five. -/
theorem pressCounts : Obligations.PressCounts := by
  unfold Obligations.PressCounts
  intro g l
  have hg : g.val < 5 := g.isLt
  have hl : l.val < 5 := l.isLt
  simp only [Fin.ext_iff, pressCount_val, Fin.val_zero]
  omega

/-- Settles O50: while a ramp is in flight the debounce is not over (R257). -/
theorem joinNeverNeeded : Obligations.JoinNeverNeeded := by
  unfold Obligations.JoinNeverNeeded
  intro s a hs hc
  rw [← Bool.not_eq_true, joinNeeded_iff]
  rintro ⟨-, -, helapsed, hramp⟩
  exact absurd helapsed (Nat.not_le.mpr (not_elapsed_of_rampOk hs.ramp hramp hc.rampBeforeDebounce))

end Sys2Proof.Proofs
end

section
/-!
SUPPORT. UPDATE: what it is while held, in each branch, and where a timer fires; and what a command's send with a
transition after it leaves (43_controller.md R222 to R236).
-/

namespace Sys2Proof.Machine

open Sys2Proof.Claims

/-! ### A command's send with a transition after it -/

theorem sent_frameSent (s : State) (p : Proto) (sc : Scancode) : Sent s (s.frameSent p sc) p sc := by
  unfold Sent
  rw [← encodeFrame_length s.cfg p sc]
  rfl

theorem cutShort_frameCutShort (s : State) (p : Proto) (sc : Scancode) : CutShort s (s.frameCutShort p sc) p sc := by
  unfold CutShort
  rw [← encodeFrame_length s.cfg p sc]
  rfl

theorem togglePower_of_off {s : State} (h : s.isOn = false) : s.togglePower = s.turnOn := by
  simp [State.togglePower, h]

theorem togglePower_of_on {s : State} (h : s.isOn = true) : s.togglePower = s.turnOff := by
  simp [State.togglePower, h]

/-- The transition `k` touches nothing a send reads or writes, so it may as well be made before the frame is sent. -/
def CommutesWithSend (k : State → State) : Prop :=
  ∀ (s : State) (p : Proto) (sc : Scancode), k (s.frameSent p sc) = (k s).frameSent p sc

theorem turnOn_commutesWithSend : CommutesWithSend State.turnOn := fun _ _ _ => rfl

theorem turnOff_commutesWithSend : CommutesWithSend State.turnOff := fun _ _ _ => rfl

/-- The send leaves the power state, by which the toggle is the turn-on or the turn-off (R234). -/
theorem togglePower_commutesWithSend : CommutesWithSend State.togglePower := fun s _ _ => by
  cases h : s.isOn with
  | false => rw [togglePower_of_off h]; exact togglePower_of_off h
  | true => rw [togglePower_of_on h]; exact togglePower_of_on h

theorem id_commutesWithSend : CommutesWithSend id := fun _ _ _ => rfl

/-- A command the device takes: the frame is sent and the transition made, with ERR 0 (R233). -/
theorem sendThen_sent {s : State} {cmd : Command} {k : State → State} (hk : CommutesWithSend k)
    (h : CommandReady s cmd) (hw : DeviceTakes s) :
    Sent { k s with err := .ok } (sendThen cmd k s) s.cfg.hpcProto (s.cfg.cmdScancode cmd) := by
  have hsend : send cmd s = (.ok, s.frameSent s.cfg.hpcProto (s.cfg.cmdScancode cmd)) := send_of_ready h hw
  have hsent : sendThen cmd k s = ((k s).frameSent s.cfg.hpcProto (s.cfg.cmdScancode cmd)).done := by
    simp [sendThen, hsend, hk s]
  rw [hsent]
  exact sent_done (k s) _ _

/-- A command cut short: WriteError, and no transition (R232). -/
theorem sendThen_cutShort {s : State} {cmd : Command} (h : CommandReady s cmd) (hw : ¬DeviceTakes s)
    (k : State → State) :
    CutShort { s with err := .writeError } (sendThen cmd k s) s.cfg.hpcProto (s.cfg.cmdScancode cmd) := by
  rw [sendThen_of_failed (send_of_short h hw) (by decide)]
  exact cutShort_fail s _ _ _

theorem sendThen_of_refused {s : State} {cmd : Command} {e : Err} (h : SendRefused s cmd e) (k : State → State) :
    sendThen cmd k s = { s with err := e } :=
  sendThen_of_failed (send_of_refused h) (ne_ok_of_sendRefused h) k

/-! ### What UPDATE may do before a send -/

/-- A send goes the same way from `u` as from `s`: what it reads of either is the same (R196, R205). -/
structure SendsAlike (s u : State) : Prop where
  cfg : u.cfg = s.cfg
  txOpen : u.txOpen = s.txOpen
  txProto : u.txProto = s.txProto
  nextWrite : u.nextWrite = s.nextWrite

theorem SendsAlike.commandReady {s u : State} {cmd : Command} (h : SendsAlike s u) (hs : CommandReady s cmd) :
    CommandReady u cmd :=
  commandReady_congr hs h.cfg h.txOpen h.txProto

theorem SendsAlike.deviceTakes {s u : State} (h : SendsAlike s u) : DeviceTakes u ↔ DeviceTakes s := by
  unfold DeviceTakes
  rw [h.cfg, h.nextWrite]

theorem SendsAlike.sendRefused {s u : State} {cmd : Command} {e : Err} (h : SendsAlike s u)
    (hs : SendRefused s cmd e) : SendRefused u cmd e := by
  unfold SendRefused Fits
  rw [h.cfg, h.txOpen, h.txProto]
  exact hs

theorem levelRequested_sendsAlike (g : Level) (s : State) : SendsAlike s (levelRequested g s) := by
  unfold levelRequested
  split <;> exact ⟨rfl, rfl, rfl, rfl⟩

theorem onTimerRunning_sendsAlike (s : State) : SendsAlike s (onTimerRunning s) := ⟨rfl, rfl, rfl, rfl⟩

/-- Neither the level request nor the off timer, which come before it, changes the way the send of a turn-off goes. -/
theorem offTimerRunning_levelRequested_sendsAlike (g : Level) (s : State) :
    SendsAlike s (offTimerRunning (levelRequested g s)) where
  cfg := (levelRequested_sendsAlike g s).cfg
  txOpen := (levelRequested_sendsAlike g s).txOpen
  txProto := (levelRequested_sendsAlike g s).txProto
  nextWrite := (levelRequested_sendsAlike g s).nextWrite

@[simp] theorem levelRequested_cfg (g : Level) (s : State) : (levelRequested g s).cfg = s.cfg :=
  (levelRequested_sendsAlike g s).cfg
@[simp] theorem levelRequested_isOn (g : Level) (s : State) : (levelRequested g s).isOn = s.isOn := by
  unfold levelRequested; split <;> rfl
@[simp] theorem levelRequested_time (g : Level) (s : State) : (levelRequested g s).time = s.time := by
  unfold levelRequested; split <;> rfl
@[simp] theorem levelRequested_shallTurnOff (g : Level) (s : State) :
    (levelRequested g s).shallTurnOff = s.shallTurnOff := by
  unfold levelRequested; split <;> rfl
@[simp] theorem levelRequested_shallTurnOffSince (g : Level) (s : State) :
    (levelRequested g s).shallTurnOffSince = s.shallTurnOffSince := by
  unfold levelRequested; split <;> rfl

/-- The off timer runs alike before and after the level request. -/
@[simp] theorem offTimerRunning_levelRequested_since (g : Level) (s : State) :
    (offTimerRunning (levelRequested g s)).shallTurnOffSince = (offTimerRunning s).shallTurnOffSince := by
  simp [offTimerRunning]

/-! ### The branch UPDATE takes -/

theorem exec_update_of_held {c p : Power} {s : State} (h : ¬NotHeld c p s) : exec (.update c p) s = .next s := by
  rw [notHeld_iff, Bool.not_eq_false] at h
  simp [exec, execUpdate, held, h]

theorem exec_update_of_notHeld {c p : Power} {s : State} (h : NotHeld c p s) :
    exec (.update c p) s = .next (updateBody (availableDw c p) s) := by
  simp [exec, execUpdate, held, notHeld_iff.mp h]

theorem exec_update_of_off {s : State} (h : s.isOn = false) (c p : Power) :
    exec (.update c p) s = .next (offBranch (availableDw c p) s) := by
  rw [exec_update_of_notHeld (notHeld_of_off h)]
  simp [updateBody, h]

theorem exec_update_of_on {c p : Power} {s : State} (h : s.isOn = true) (hn : NotHeld c p s) :
    exec (.update c p) s =
      .next (offTimer (availableDw c p) (levelRequested (tier s.cfg (availableDw c p)) s)) := by
  rw [exec_update_of_notHeld hn, ← requestLevel_eq]
  simp [updateBody, h, onBranch]

/-! ### The on timer -/

theorem offBranch_of_le_low {a : Int} {s : State} (h : a ≤ s.cfg.lowThreshold) :
    offBranch a s = s.clearCanTurnOn.done := by
  simp [offBranch, Int.not_lt.mpr h]

theorem offBranch_of_running {a : Int} {s : State} (h : s.cfg.lowThreshold < a)
    (ht : s.time < (onTimerRunning s).canTurnOnSince + s.cfg.tOn) : offBranch a s = (onTimerRunning s).done := by
  rw [← startCanTurnOn_eq] at ht ⊢
  simp [offBranch, h, elapsed_eq_false_iff.mpr ht]

theorem offBranch_of_ranOut {a : Int} {s : State} (h : s.cfg.lowThreshold < a)
    (ht : (onTimerRunning s).canTurnOnSince + s.cfg.tOn ≤ s.time) :
    offBranch a s = sendThen .powerToggle State.turnOn (onTimerRunning s) := by
  rw [← startCanTurnOn_eq] at ht ⊢
  simp [offBranch, h, elapsed_iff.mpr ht]

/-! ### The off timer, after the level request -/

theorem offTimer_of_low_lt {a : Int} {s : State} (h : s.cfg.lowThreshold < a) :
    offTimer a s = s.clearShallTurnOff.done := by
  simp [offTimer, h]

theorem offTimer_of_running {a : Int} {s : State} (h : a ≤ s.cfg.lowThreshold)
    (ht : s.time < (offTimerRunning s).shallTurnOffSince + s.cfg.tOff) : offTimer a s = (offTimerRunning s).done := by
  rw [← startShallTurnOff_eq] at ht ⊢
  simp [offTimer, Int.not_lt.mpr h, elapsed_eq_false_iff.mpr ht]

theorem offTimer_of_ranOut {a : Int} {s : State} (h : a ≤ s.cfg.lowThreshold)
    (ht : (offTimerRunning s).shallTurnOffSince + s.cfg.tOff ≤ s.time) :
    offTimer a s = sendThen .powerToggle State.turnOff (offTimerRunning s) := by
  rw [← startShallTurnOff_eq] at ht ⊢
  simp [offTimer, Int.not_lt.mpr h, elapsed_iff.mpr ht]

/-- At or below Low the On branch requests level 0, and then looks at the off timer (R224, R225). -/
theorem exec_update_of_on_le_low {c p : Power} {s : State} (h : s.isOn = true) (hn : NotHeld c p s)
    (hlow : availableDw c p ≤ s.cfg.lowThreshold) :
    exec (.update c p) s = .next (offTimer (availableDw c p) (levelRequested 0 s)) := by
  rw [exec_update_of_on h hn, tier_of_le_low hlow]

/-- The off timer of an On branch at or below Low runs out: POWER_TOGGLE is sent after the level request (R225). -/
theorem exec_update_offTimer_ranOut {c p : Power} {s : State} (h : s.isOn = true) (hn : NotHeld c p s)
    (hlow : availableDw c p ≤ s.cfg.lowThreshold)
    (ht : (offTimerRunning s).shallTurnOffSince + s.cfg.tOff ≤ s.time) :
    exec (.update c p) s =
      .next (sendThen .powerToggle State.turnOff (offTimerRunning (levelRequested 0 s))) := by
  rw [exec_update_of_on_le_low h hn hlow, offTimer_of_ranOut (by simpa using hlow) (by simpa using ht)]

/-- The on timer of an Off branch above Low runs out: POWER_TOGGLE is sent (R223). -/
theorem exec_update_onTimer_ranOut {c p : Power} {s : State} (h : s.isOn = false)
    (hlow : s.cfg.lowThreshold < availableDw c p)
    (ht : (onTimerRunning s).canTurnOnSince + s.cfg.tOn ≤ s.time) :
    exec (.update c p) s = .next (sendThen .powerToggle State.turnOn (onTimerRunning s)) := by
  rw [exec_update_of_off h, offBranch_of_ranOut hlow ht]

/-! ### RAMP_PRESS -/

theorem rampPress_of_sent {s u : State} (h : send .inverterPower s = (.ok, u)) :
    rampPress s = u.stepLevel.pressDone := by
  simp [rampPress, h]

theorem rampPress_of_failed {s u : State} {e : Err} (h : send .inverterPower s = (e, u)) (he : e ≠ .ok) :
    rampPress s = (u.rampFail e).pressDone := by
  simp [rampPress, h, he]

end Sys2Proof.Machine

namespace Sys2Proof.Proofs

open Sys2Proof.Machine Sys2Proof.Claims

/-- Settles O36: the Off branch at or below Low, and above it with the timer still running. -/
theorem updateOffWithoutFiring : Obligations.UpdateOffWithoutFiring := by
  unfold Obligations.UpdateOffWithoutFiring
  intro s c p hoff
  refine ⟨fun hlow => ?_, fun hlow ht => ?_⟩
  · rw [exec_update_of_off hoff, offBranch_of_le_low hlow]
    rfl
  · rw [exec_update_of_off hoff, offBranch_of_running hlow ht]
    rfl

/-- Settles O37: the send of the timer that ran out, taken or cut short. -/
theorem updateTurnsOn : Obligations.UpdateTurnsOn := by
  unfold Obligations.UpdateTurnsOn
  intro s c p hoff hlow ht hready
  have hexec := exec_update_onTimer_ranOut hoff hlow ht
  have halike := onTimerRunning_sendsAlike s
  have hready' := halike.commandReady hready
  exact ⟨fun hw => ⟨_, hexec, sendThen_sent turnOn_commutesWithSend hready' (halike.deviceTakes.mpr hw)⟩,
    fun hw => ⟨_, hexec, sendThen_cutShort hready' (mt halike.deviceTakes.mp hw) _⟩⟩

/-- Settles O38: the On branch above Low. -/
theorem updateRequestsLevel : Obligations.UpdateRequestsLevel := by
  unfold Obligations.UpdateRequestsLevel
  intro s c p hon hn hlow
  rw [exec_update_of_on hon hn, offTimer_of_low_lt (by simpa using hlow)]
  rfl

/-- Settles O39: the On branch at or below Low with the timer still running. -/
theorem updateRunsOffTimer : Obligations.UpdateRunsOffTimer := by
  unfold Obligations.UpdateRunsOffTimer
  intro s c p hon hn hlow ht
  rw [exec_update_of_on_le_low hon hn hlow, offTimer_of_running (by simpa using hlow) (by simpa using ht)]
  rfl

/-- Settles O40: the send of the timer that ran out, which the level request before it does not touch. -/
theorem updateTurnsOff : Obligations.UpdateTurnsOff := by
  unfold Obligations.UpdateTurnsOff
  intro s c p hon hn hlow ht hready
  have hexec := exec_update_offTimer_ranOut hon hn hlow ht
  have halike := offTimerRunning_levelRequested_sendsAlike 0 s
  have hready' := halike.commandReady hready
  refine ⟨fun hw => ⟨_, hexec, ?_⟩, fun hw => ⟨_, hexec, ?_⟩⟩
  · exact halike.cfg ▸ sendThen_sent turnOff_commutesWithSend hready' (halike.deviceTakes.mpr hw)
  · exact halike.cfg ▸ sendThen_cutShort hready' (mt halike.deviceTakes.mp hw) _

/-- Settles O41: neither a timer nor a level request changes why the send after it is refused. -/
theorem updateSendRefused : Obligations.UpdateSendRefused := by
  unfold Obligations.UpdateSendRefused
  intro s c p e hrefused
  refine ⟨fun hoff hlow ht => ?_, fun hon hn hlow ht => ?_⟩
  · rw [exec_update_onTimer_ranOut hoff hlow ht,
      sendThen_of_refused ((onTimerRunning_sendsAlike s).sendRefused hrefused)]
  · rw [exec_update_offTimer_ranOut hon hn hlow ht,
      sendThen_of_refused ((offTimerRunning_levelRequested_sendsAlike 0 s).sendRefused hrefused)]

/-- Settles O42: the hold of R229 is the first thing UPDATE checks. -/
theorem updateWaitsForRamp : Obligations.UpdateWaitsForRamp := by
  unfold Obligations.UpdateWaitsForRamp
  exact fun s c p h => exec_update_of_held h

/-- Settles O43: the toggle is the turn-on or the turn-off, by the power state the send left. -/
theorem pressPowerToggle : Obligations.PressPowerToggle := by
  unfold Obligations.PressPowerToggle
  intro s hready hw
  have hsent := sendThen_sent togglePower_commutesWithSend hready hw
  refine ⟨fun hoff => ⟨_, rfl, ?_⟩, fun hon => ⟨_, rfl, ?_⟩⟩
  · rwa [togglePower_of_off hoff] at hsent
  · rwa [togglePower_of_on hon] at hsent

/-- Settles O44: the send alone, with no transition after it. -/
theorem pressTemperature : Obligations.PressTemperature := by
  unfold Obligations.PressTemperature
  exact fun s hw => ⟨fun hready => ⟨_, rfl, sendThen_sent id_commutesWithSend hready hw⟩,
    fun hready => ⟨_, rfl, sendThen_sent id_commutesWithSend hready hw⟩⟩

/-- Settles O46: what the worker does after its send commutes with the frame's being stored and logged. -/
theorem rampPressOutcomes : Obligations.RampPressOutcomes := by
  unfold Obligations.RampPressOutcomes
  intro s _
  refine ⟨fun hready hw => ?_, fun hready hw => ?_, fun e h => ?_⟩
  · rw [rampPress_of_sent (send_of_ready hready hw)]
    exact sent_frameSent s.stepLevel.pressDone _ _
  · rw [rampPress_of_failed (send_of_short hready hw) (by decide)]
    exact cutShort_frameCutShort (s.rampFail .writeError).pressDone _ _
  · rw [rampPress_of_failed (send_of_refused h) (ne_ok_of_sendRefused h)]
    rfl

/-- Settles O56: an UPDATE changes the power state only where its timer ran out, and a timer that ran out was started
before. -/
theorem timersNeverFireEarly : Obligations.TimersNeverFireEarly := by
  unfold Obligations.TimersNeverFireEarly
  intro s t c p htOn htOff h
  refine ⟨fun hoff hon' => ?_, fun hon hoff' => ?_⟩
  · rw [exec_update_of_off hoff] at h
    cases h
    obtain ⟨-, hb⟩ | ⟨-, -, hb⟩ | ⟨hlow, ht, -⟩ := offBranch_cases (availableDw c p) s
    · simp [hb, hoff] at hon'
    · simp [hb, hoff] at hon'
    · rw [startCanTurnOn_eq, elapsed_iff] at ht
      obtain ⟨hlatch, hsince⟩ := latch_of_ranOut htOn ht
      exact ⟨hlatch, hsince, hlow⟩
  · by_cases hn : NotHeld c p s
    · rw [exec_update_of_on hon hn] at h
      cases h
      obtain ⟨-, hb⟩ | ⟨-, -, hb⟩ | ⟨hlow, ht, -⟩ := offTimer_cases (availableDw c p)
        (levelRequested (tier s.cfg (availableDw c p)) s)
      · simp [hb, hon] at hoff'
      · simp [hb, hon] at hoff'
      · rw [startShallTurnOff_eq, elapsed_iff] at ht
        simp only [offTimerRunning_levelRequested_since, levelRequested_cfg, levelRequested_time] at hlow ht
        obtain ⟨hlatch, hsince⟩ := latch_of_ranOut htOff ht
        exact ⟨hlatch, hsince, hlow⟩
    · rw [exec_update_of_held hn] at h
      cases h
      simp [hon] at hoff'

end Sys2Proof.Proofs
end

section
/-!
SUPPORT. A due press and the host's queue: a host operation leaves the ramp in flight where it stands, so each step
before the press uses a request up (43_controller.md R229, R256; 60_exceptions.md R290, R292).
-/

namespace Sys2Proof.Machine

/-! ### A host operation completes -/

/-- No failure stops the block (R290). -/
theorem exec_completes (i : Instr) (s : State) : ∃ t, exec i s = .next t := by
  cases i with
  | txopen sel => simp only [exec, execTxopen]; split <;> exact ⟨_, rfl⟩
  | txsend sel sc => simp only [exec, execTxsend]; split <;> exact ⟨_, rfl⟩
  | txclose => simp only [exec, execTxclose]; split <;> exact ⟨_, rfl⟩
  | update c p => simp only [exec, execUpdate]; split <;> exact ⟨_, rfl⟩
  | _ => exact ⟨_, rfl⟩

theorem runRequest_completes (s : State) : ∃ t, runRequest s = .next t := by
  unfold runRequest
  split
  · exact ⟨_, rfl⟩
  · split
    · exact exec_completes _ _
    · exact ⟨_, rfl⟩

/-! ### A host operation leaves the queue -/

theorem encodeOp_requests (p : Proto) (sc : Scancode) (s : State) : (encodeOp p sc s).requests = s.requests := by
  unfold encodeOp
  split
  · rfl
  · split <;> rfl

theorem txsendOp_requests (p : Proto) (sc : Scancode) (s : State) : (txsendOp p sc s).requests = s.requests := by
  unfold txsendOp
  split
  · rfl
  · split
    · rfl
    · dsimp only; split <;> simp

theorem openHandle_requests (p : Proto) (s : State) : (openHandle p s).requests = s.requests := by
  obtain ⟨-, h⟩ | ⟨-, h⟩ := openHandle_cases p s
  · simp [h]
  · obtain ⟨l, h', -⟩ | ⟨l, e, h', -⟩ := openDevice_cases p s.nextOpen s.openDrawn <;> simp [h, h']

theorem closeHandle_requests (s : State) : (closeHandle s).requests = s.requests := by
  obtain ⟨-, h⟩ | ⟨-, h⟩ := closeHandle_cases s <;> simp [h]

theorem sendThen_requests (cmd : Command) {k : State → State} (hk : ∀ u, (k u).requests = u.requests) (s : State) :
    (sendThen cmd k s).requests = s.requests := by
  obtain ⟨-, h⟩ | ⟨-, h⟩ := sendThen_cases cmd k s <;> simp [h, hk]

theorem requestLevel_requests (g : Level) (s : State) : (requestLevel g s).requests = s.requests := by
  obtain ⟨-, h⟩ | ⟨-, h⟩ := requestLevel_cases g s <;> simp [h]

theorem offBranch_requests (a : Int) (s : State) : (offBranch a s).requests = s.requests := by
  obtain ⟨-, h⟩ | ⟨-, -, h⟩ | ⟨-, -, h⟩ := offBranch_cases a s <;> rw [h]
  · rfl
  · simp
  · rw [sendThen_requests _ turnOn_requests, startCanTurnOn_requests]

theorem offTimer_requests (a : Int) (s : State) : (offTimer a s).requests = s.requests := by
  obtain ⟨-, h⟩ | ⟨-, -, h⟩ | ⟨-, -, h⟩ := offTimer_cases a s <;> rw [h]
  · rfl
  · simp
  · rw [sendThen_requests _ turnOff_requests, startShallTurnOff_requests]

theorem updateBody_requests (a : Int) (s : State) : (updateBody a s).requests = s.requests := by
  unfold updateBody
  split
  · rw [onBranch, offTimer_requests, requestLevel_requests]
  · exact offBranch_requests a s

/-- A host operation makes no request and takes none but the one it performs (R75). -/
theorem HostEffect.requests {s t : State} (h : HostEffect s t) : t.requests = s.requests := by
  cases h with
  | valid => rfl
  | encode p sc => exact encodeOp_requests p sc s
  | txopen p => exact openHandle_requests p s
  | txsend p sc => exact txsendOp_requests p sc s
  | illegal => rfl
  | waits => rfl
  | txclose => exact closeHandle_requests s
  | update a => exact updateBody_requests a s
  | toggle => exact sendThen_requests _ togglePower_requests s
  | temperature cmd => exact sendThen_requests cmd (fun _ => rfl) s

/-! ### A host operation leaves a ramp in flight -/

/-- The ramp of `s` stands in `t` as it stood: as many presses to send, and the next at the same time (R39). -/
def SameRamp (s t : State) : Prop := t.rampRemaining = s.rampRemaining ∧ t.rampNext = s.rampNext

theorem sameRamp_of_controller {s t : State} (h : t.controller = s.controller) : SameRamp s t :=
  ⟨congrArg Controller.rampRemaining h, congrArg Controller.rampNext h⟩

theorem sendThen_sameRamp (cmd : Command) {k : State → State} (hk : ∀ u, SameRamp u (k u)) (s : State) :
    SameRamp s (sendThen cmd k s) := by
  obtain ⟨-, h⟩ | ⟨-, h⟩ := sendThen_cases cmd k s
  · obtain ⟨hrem, hnext⟩ := hk (send cmd s).2
    simp [SameRamp, h, hrem, hnext]
  · simp [SameRamp, h]

theorem turnOn_sameRamp (s : State) : SameRamp s s.turnOn := ⟨rfl, rfl⟩
theorem turnOff_sameRamp (s : State) : SameRamp s s.turnOff := ⟨rfl, rfl⟩
theorem togglePower_sameRamp (s : State) : SameRamp s s.togglePower := by simp [SameRamp]

theorem offBranch_sameRamp (a : Int) (s : State) : SameRamp s (offBranch a s) := by
  obtain ⟨-, h⟩ | ⟨-, -, h⟩ | ⟨-, -, h⟩ := offBranch_cases a s <;> rw [h]
  · exact ⟨rfl, rfl⟩
  · simp [SameRamp]
  · simpa [SameRamp] using sendThen_sameRamp .powerToggle turnOn_sameRamp s.startCanTurnOn

theorem offTimer_sameRamp (a : Int) (s : State) : SameRamp s (offTimer a s) := by
  obtain ⟨-, h⟩ | ⟨-, -, h⟩ | ⟨-, -, h⟩ := offTimer_cases a s <;> rw [h]
  · exact ⟨rfl, rfl⟩
  · simp [SameRamp]
  · simpa [SameRamp] using sendThen_sameRamp .powerToggle turnOff_sameRamp s.startShallTurnOff

/-- An On-branch UPDATE that is not held while a ramp is in flight requests no level: it would have been held (R229). -/
theorem requestLevel_of_not_joinNeeded {a : Int} {s : State} (h : joinNeeded a s = false) (hon : s.isOn = true)
    (hr : rampInFlight s = true) : requestLevel (tier s.cfg a) s = s := by
  simp only [joinNeeded, hon, hr, Bool.true_and, Bool.and_true] at h
  have hacc : requestAccepted (tier s.cfg a) s = false := h
  simp [requestLevel, hacc]

theorem updateBody_sameRamp {a : Int} {s : State} (h : joinNeeded a s = false) (hr : rampInFlight s = true) :
    SameRamp s (updateBody a s) := by
  unfold updateBody
  split
  · rename_i hon
    rw [onBranch, requestLevel_of_not_joinNeeded h hon hr]
    exact offTimer_sameRamp a s
  · exact offBranch_sameRamp a s

theorem HostEffect.sameRamp {s t : State} (h : HostEffect s t) (hr : rampInFlight s = true) : SameRamp s t := by
  cases h with
  | update a hj => exact updateBody_sameRamp hj hr
  | toggle => exact sendThen_sameRamp .powerToggle togglePower_sameRamp s
  | temperature cmd => exact sendThen_sameRamp cmd (fun _ => ⟨rfl, rfl⟩) s
  | _ => exact sameRamp_of_controller (by simp)

/-! ### The step at a due press -/

/-- In `t` the due press of `s` has been made, and TIME has not moved (R251, R256). -/
structure PressMade (s t : State) : Prop where
  time : t.time = s.time
  remaining : t.rampRemaining.val + 1 = s.rampRemaining.val
  next : t.rampNext = s.rampNext + s.cfg.tPress

/-- In `u` the due press of `s` is one request nearer, and nothing of it has changed. -/
structure PressNearer (s u : State) : Prop where
  requests : u.requests.length + 1 = s.requests.length
  cfg : u.cfg = s.cfg
  time : u.time = s.time
  ramp : SameRamp s u

theorem PressNearer.pressDue {s u : State} (h : PressNearer s u) (hp : pressDue s = true) : pressDue u = true := by
  obtain ⟨hrem, hnext⟩ := h.ramp
  rw [pressDue_iff, hrem, hnext, h.time]
  exact pressDue_iff.mp hp

theorem PressNearer.pressMade {s u t : State} (h : PressNearer s u) (ht : PressMade u t) : PressMade s t := by
  obtain ⟨hrem, hnext⟩ := h.ramp
  exact ⟨ht.time.trans h.time, hrem ▸ ht.remaining, by rw [ht.next, hnext, h.cfg]⟩

/-- With a press due the internal side makes it (O11), or the host uses a request up (R256, R292). -/
theorem step_of_pressDue {s : State} (hp : pressDue s = true) :
    ∃ u, step s = .next u ∧ (PressMade s u ∨ PressNearer s u) := by
  cases hn : nextTurn s with
  | internal =>
    obtain ⟨hpress, -⟩ := Proofs.pressBeforeTick s hn
    obtain ⟨t, hstep, htime, hrem, hnext⟩ := hpress (pressDue_iff.mp hp)
    exact ⟨t, hstep, .inl ⟨htime, hrem, hnext⟩⟩
  | host =>
    obtain ⟨u, hu⟩ := runRequest_completes (s.takeTurn .host)
    have hstep : step s = .next u := (step_of_host hn).trans hu
    have he := hostEffect_of_step hn hstep
    obtain ⟨w, rest, hq, -⟩ := hostReady_cases (nextTurn_host hn)
    obtain ⟨htime, -⟩ := he.frame
    obtain ⟨hrem, hnext⟩ := he.sameRamp (by simpa [rampInFlight] using (pressDue_iff.mp hp).1)
    exact ⟨u, hstep, .inr {
      requests := by simp [he.requests, hq]
      cfg := step_cfg hstep
      time := by simpa using htime
      ramp := ⟨by simpa using hrem, by simpa using hnext⟩ }⟩

/-- A due press is made within as many steps as the host has requests, and one (R256). -/
theorem run_to_duePress {s : State} (hp : pressDue s = true) :
    ∃ k t, k ≤ s.requests.length + 1 ∧ Host.Core.run Sys2Proof.core k s = .next t ∧ PressMade s t := by
  induction hlen : s.requests.length generalizing s with
  | zero =>
    obtain ⟨t, hstep, hmade | hnear⟩ := step_of_pressDue hp
    · exact ⟨1, t, le_rfl, core_run_one hstep, hmade⟩
    · exact absurd (hnear.requests.trans hlen) (Nat.succ_ne_zero _)
  | succ n ih =>
    obtain ⟨u, hstep, hmade | hnear⟩ := step_of_pressDue hp
    · exact ⟨1, u, Nat.le_add_left 1 (n + 1), core_run_one hstep, hmade⟩
    · have hleft : u.requests.length = n := Nat.succ.inj (hnear.requests.trans hlen)
      obtain ⟨k, t, hk, hrun, hmade⟩ := ih (hnear.pressDue hp) hleft
      exact ⟨k + 1, t, Nat.succ_le_succ hk, core_run_succ hstep hrun, hnear.pressMade hmade⟩

end Sys2Proof.Machine

namespace Sys2Proof.Proofs

open Sys2Proof.Machine

/-- Settles O58, by induction on the host's queue. -/
theorem duePressIsTaken : Obligations.DuePressIsTaken := by
  unfold Obligations.DuePressIsTaken
  intro s hp
  obtain ⟨k, t, hk, hrun, hmade⟩ := run_to_duePress hp
  exact ⟨k, t, hk, hrun, hmade.time, hmade.remaining, hmade.next⟩

end Sys2Proof.Proofs
end

section
/-!
SUPPORT. Who is enabled and who moves, case by case (60_exceptions.md R292).
-/

namespace Sys2Proof.Machine

/-- The host is enabled when its next request names no operation, or one that is not held (R203, R229, R292). -/
theorem hostReady_iff {s : State} :
    hostReady s = true ↔ ∃ w rest, s.requests = w :: rest ∧ ∀ i, decode w = .ok i → held i s = false := by
  constructor
  · intro h
    obtain ⟨w, rest, hq, ⟨e, hd⟩ | ⟨i, hd, hh⟩⟩ := hostReady_cases h
    · exact ⟨w, rest, hq, by simp [hd]⟩
    · exact ⟨w, rest, hq, by simp [hd, hh]⟩
  · rintro ⟨w, rest, hq, hfree⟩
    cases hd : decode w with
    | ok i => simp [hostReady, hq, hd, hfree i hd]
    | error e => simp [hostReady, hq, hd]

theorem internalReady_iff {s : State} : internalReady s = true ↔ pressDue s = true ∨ tickReady s = true := by
  simp [internalReady]

theorem nextTurn_of_bothReady {s : State} (hh : hostReady s = true) (hi : internalReady s = true) :
    nextTurn s = s.wantedTurn := by
  simp [nextTurn, hh, hi]

theorem nextTurn_of_onlyHostReady {s : State} (hh : hostReady s = true) (hi : internalReady s = false) :
    nextTurn s = .host := by
  simp [nextTurn, hh, hi]

theorem nextTurn_of_hostNotReady {s : State} (hh : hostReady s = false) : nextTurn s = .internal := by
  simp [nextTurn, hh]

theorem wantedTurn_of_schedule {s : State} {t : Turn} {ts : List Turn} (h : s.schedule = t :: ts) :
    s.wantedTurn = t := by
  simp [State.wantedTurn, h]

end Sys2Proof.Machine

namespace Sys2Proof.Proofs

open Sys2Proof.Machine

/-- Settles O8: the schedule is asked only where both sides are enabled. -/
theorem onlyEnabledAgentsMove : Obligations.OnlyEnabledAgentsMove := by
  unfold Obligations.OnlyEnabledAgentsMove
  intro s
  refine ⟨?_, ?_, nextTurn_of_hostNotReady, hostReady_iff⟩
  · rintro ⟨hh, hi⟩ t ts hsched
    rw [nextTurn_of_bothReady hh (internalReady_iff.mpr hi), wantedTurn_of_schedule hsched]
  · rintro ⟨hh, hp, ht⟩
    exact nextTurn_of_onlyHostReady hh (by simp [internalReady, hp, ht])

/-- Settles O10: every arm of the dispatch answers a next state, the held ones included. -/
theorem everyOperationCompletes : Obligations.EveryOperationCompletes := by
  unfold Obligations.EveryOperationCompletes
  exact exec_completes

/-- Settles O60, code by code. -/
theorem errorCodes : Obligations.ErrorCodes := by
  unfold Obligations.ErrorCodes
  exact ⟨rfl, rfl, rfl, rfl, rfl, rfl, rfl, rfl, rfl, rfl, rfl, rfl, rfl, rfl⟩

end Sys2Proof.Proofs
end
